-- ==== Sys2Proof/Word.lean ====
section
/-! DEFINITION. The units the block moves: bytes of a stream or of the wire, 16-bit frame words (R8 `W`,
R77), and the 32-bit values of BAUD and of a timestamp (R8 `BAUD_BITS`, `TS_BITS`). Everything is unsigned (R13). -/

namespace Sys2Proof

/-- A byte of a FIFO or of the wire (R77). -/
abbrev Byte := BitVec 8

/-- A word of a frame: 16 bits in every field (R8 `W`, R100). -/
abbrev Word := BitVec 16

/-- A baud rate or a timestamp: 32 bits (R8 `BAUD_BITS`, `TS_BITS`). -/
abbrev Word32 := BitVec 32

end Sys2Proof
end

