-- ==== Sys2Proof/Config.lean ====
section
/-! DEFINITION. The configuration record `Cfg` of R8 with its range conditions (R9, R10, U6), its reference value,
the fixed constants of R8, and the free values: what ENV answers where no answer is scripted (R16 `Draw`). -/

namespace Sys2Proof

/-- Which checksum function `Cfg.CK` is (R224). State is plain data, so the function is named, not held:
`crc16ccitt` is the reference `CK_ref` (R225), `other k` the k-th function nothing is known about. -/
inductive CkAlg
  | crc16ccitt
  | other (k : Nat)
deriving DecidableEq, Repr

/-- `Cfg` (R8): what the source names without fixing. -/
structure Cfg where
  /-- `N`: payload words per frame. -/
  n : Nat
  /-- `POLL_US`: the poll interval in microseconds. -/
  pollUs : Nat
  /-- `PAGE_CFG`: the baud-configuration page. -/
  pageCfg : Word
  /-- `PAGE_DATA`: the stream-data page. -/
  pageData : Word
  /-- `K_READ`. -/
  kRead : BitVec 2
  /-- `K_WRITE`. -/
  kWrite : BitVec 2
  /-- `K_BULK`. -/
  kBulk : BitVec 2
  /-- `CK`: the checksum function. -/
  ck : CkAlg
  /-- `RX_CHECK`: whether the response's checksum is validated. -/
  rxCheck : Bool
deriving DecidableEq, Repr

/-- `FRAME_WORDS` (R8). -/
def Cfg.frameWords (c : Cfg) : Nat := c.n + 4

/-- `FRAME_BYTES` (R8, R101). -/
def Cfg.frameBytes (c : Cfg) : Nat := 2 * (c.n + 4)

/-- `PAYLOAD_BYTES` (R8): the payload capacity in bytes. -/
def Cfg.payloadBytes (c : Cfg) : Nat := 2 * c.n

/-- The legal ranges of R8, R9 and R10; a `Cfg` outside them is refused (U6). -/
def Cfg.wf (c : Cfg) : Bool :=
  decide (2 ≤ c.n) && decide (c.n ≤ 16383) &&
  decide (1 ≤ c.pollUs) && decide (c.pollUs ≤ 1000000) &&
  decide (c.pageCfg ≠ c.pageData) &&
  decide (c.kRead ≠ c.kWrite) && decide (c.kRead ≠ c.kBulk) && decide (c.kWrite ≠ c.kBulk)

/-- The reference values of R8, used by every worked example of the spec. -/
def Cfg.reference : Cfg where
  n := 32
  pollUs := 10000
  pageCfg := 0x0001
  pageData := 0x0002
  kRead := 0
  kWrite := 1
  kBulk := 2
  ck := .crc16ccitt
  rxCheck := false

/-- The kind code none of the three kinds has (R119); with the reference codes it is 0b11.
(The four 2-bit codes add up to 2 modulo 4.) -/
def Cfg.kReserved (c : Cfg) : BitVec 2 := 2 - c.kRead - c.kWrite - c.kBulk

namespace Config

/-- `LINE_BITS_PER_BYTE` (R8). -/
def lineBitsPerByte : Nat := 10

/-- `US_PER_S` (R8). -/
def usPerS : Nat := 1000000

/-- `CAP_TEST` (R8, R144): a requested capacity below it is raised. -/
def capTest : Nat := 1024

/-- `CAP_FLOOR` (R8, R144): what such a request is raised to. -/
def capFloor : Nat := 2048

/-- A checksum function of which only determinism is known (R224, log entry 5). -/
opaque otherCk : Nat → List Byte → Word

/-- Free value: `Draw(ext_ok)` number n (R56). -/
opaque freeExtOk : Nat → Bool

/-- Free value: `Draw(alloc_in)` number n (R57). -/
opaque freeAllocIn : Nat → Bool

/-- Free value: `Draw(alloc_out)` number n (R57). -/
opaque freeAllocOut : Nat → Bool

/-- Free value: byte k of `Draw(rx_frame)` number n (R80). -/
opaque freeRxByte : Nat → Nat → Byte

/-- Free value: what the physical UART driver answers to a delegated WRITE (R153). -/
opaque freeUartAccepted : Nat → Nat

/-- Free value: the bytes the physical UART driver answers to a delegated READ (R153). -/
opaque freeUartBytes : Nat → List Byte

/-- Free value: what a delegated TRYACQ answers (R140, log entry 12). -/
opaque freeUartAcquired : Nat → Bool

end Config

end Sys2Proof
end

