-- ==== Sys2Proof/Machine/Operands.lean ====
section
/-! DEFINITION. The operand forms: how a baud rate, a byte count and stream bytes become frame words and come back
(R70 to R72, R110 to R112, R244, R245), the capacity clamp (R144), the pacing cap (R181), the outbound budget
(R180), the inbound bound (R188) and the elapsed time (R194). -/

namespace Sys2Proof.Machine

/-- The low byte of a word, the first on the wire (R70). -/
def loByte (w : Word) : Byte := w.extractLsb' 0 8

/-- The high byte of a word, the second on the wire (R70). -/
def hiByte (w : Word) : Byte := w.extractLsb' 8 8

/-- The word of a low and a high byte (R70, R241). -/
def wordOf (lo hi : Byte) : Word := hi ++ lo

/-- `payload[0]` of a baud rate: `BAUD[15:0]` (R72, R110). -/
def baudLow (b : Word32) : Word := b.extractLsb' 0 16

/-- `payload[1]` of a baud rate: `BAUD[31:16]` (R72, R110). -/
def baudHigh (b : Word32) : Word := b.extractLsb' 16 16

/-- The baud rate of its two payload words (R72). -/
def baudOf (lo hi : Word) : Word32 := hi ++ lo

/-- The N payload words of a baud-configuration frame (R108, R246). -/
def baudPayload (n : Nat) (b : Word32) : List Word :=
  (List.range n).map fun k => if k = 0 then baudLow b else if k = 1 then baudHigh b else 0

/-- The byte-count operand as it stands in the offset field (R111). -/
def countWord (n : Nat) : Word := BitVec.ofNat 16 n

/-- `PackBytes` (R244): byte k goes to the low half of word k/2 for even k, to the high half for odd k. -/
def packBytes (n : Nat) (d : List Byte) : List Word :=
  (List.range n).map fun k => wordOf (d.getD (2 * k) 0) (d.getD (2 * k + 1) 0)

/-- `UnpackBytes` (R245). -/
def unpackBytes (payload : List Word) (m : Nat) : List Byte :=
  (List.range m).map fun k =>
    if k % 2 = 0 then loByte (payload.getD (k / 2) 0) else hiByte (payload.getD (k / 2) 0)

/-- `Clamp` (R144): threshold 1024, replacement 2048 (C1). -/
def clamp (c : Nat) : Nat := if c < Config.capTest then Config.capFloor else c

/-- Whether `Clamp` raises the request (R143). -/
def clampRaises (c : Nat) : Bool := decide (c < Config.capTest)

/-- `ticks_per_second` of R181, truncating. -/
def ticksPerSecond (c : Cfg) : Nat := Config.usPerS / c.pollUs

/-- `PacingCap(b)` (R181): the three truncating divisions in the source's order. -/
def pacingCap (c : Cfg) (b : Word32) : Nat := b.toNat / Config.lineBitsPerByte / ticksPerSecond c

/-- The outbound byte budget of step 6 (R180). -/
def budget (c : Cfg) (available : Nat) (b : Word32) : Nat :=
  min available (min c.payloadBytes (pacingCap c b))

/-- The number of response bytes step 10 copies (R188). -/
def inboundCount (c : Cfg) (cnt free : Nat) : Nat := min cnt (min free c.payloadBytes)

/-- `elapsed` (R178, R194): unsigned subtraction modulo 2^32. -/
def elapsed (now last : Word32) : Nat := (now - last).toNat

end Sys2Proof.Machine
end

