-- ==== Sys2Proof/Syntax.lean ====
section
/-! DEFINITION. Frames (R100) and instructions: one constructor of `Instr` per row of the opcode table. The eight
frame rows are frames on the bus at the micro-step that sends or inspects them; the eight host rows are calls
(R125). `Packet` is what is decoded: a call's bytes, or the wire bytes of a frame in one direction (R131). -/

namespace Sys2Proof

/-- The logical frame (R240): the record the register files TXF and RXF hold (R31 to R33). -/
structure Frame where
  /-- commandCode, word 0. -/
  cc : Word
  /-- page, word 1. -/
  page : Word
  /-- offset, word 2. -/
  offset : Word
  /-- payload, words 3 to N + 2. -/
  payload : List Word
  /-- checksum, word N + 3. -/
  cksum : Word
deriving DecidableEq, Repr

/-- A received frame recognised as DATARSP (R117): its page is PAGE_DATA, the rest is whatever arrived. -/
structure RspFrame where
  /-- The whole commandCode, not examined (R117). -/
  cc : Word
  /-- The offset field: the advertised byte count (R107, R250). -/
  cnt : Word
  payload : List Word
  cksum : Word
deriving DecidableEq, Repr

/-- The direction a frame travels, as the block sees it. -/
inductive Dir
  /-- Sent by the block. -/
  | tx
  /-- Received by the block. -/
  | rx
deriving DecidableEq, Repr

/-- A frame described by its kind alone (R118, R119), in the direction it travels: everything but the kind, which
the constructor says. -/
structure ClassFrame where
  dir : Dir
  /-- `cc[13:0]` (R104). -/
  count : BitVec 14
  page : Word
  offset : Word
  payload : List Word
  cksum : Word
deriving DecidableEq, Repr

/-- One constructor per row of the opcode table. A class row describes frames of either direction. -/
inductive Instr
  /-- CFGBAUD (R114, R246): the baud-configuration frame, transmitted. -/
  | cfgbaud (baud : Word32)
  /-- DATAWR (R115, R248): the data-write frame carrying these stream bytes, transmitted. -/
  | datawr (bytes : List Byte)
  /-- DATARD (R116, R249): the read-request frame, transmitted. -/
  | datard
  /-- DATARSP (R117, R250): the response frame, received. -/
  | datarsp (rsp : RspFrame)
  /-- RD (R118): a read-kind frame that no specific row of its direction describes. -/
  | rd (frame : ClassFrame)
  /-- WR (R118): a write-kind frame that no specific row of its direction describes. -/
  | wr (frame : ClassFrame)
  /-- BULK (R118, R120): a bulk-transfer-kind frame that no specific row of its direction describes. -/
  | bulk (frame : ClassFrame)
  /-- K3 (R119): a frame of the reserved kind that no specific row of its direction describes. -/
  | k3 (frame : ClassFrame)
  /-- BEGIN (R141). -/
  | begin (baudRate : Word32) (rxCapacity txCapacity : Nat)
  /-- WRITE (R148). -/
  | write (bytes : List Byte)
  /-- READ (R149). -/
  | read (maxLength : Nat)
  /-- ISEXT (R150). -/
  | isext
  /-- TRYACQ (R151). -/
  | tryacq
  /-- REL (R152). -/
  | rel
  /-- TICK (R170): the strobe. -/
  | tick
  /-- RESERVED7 (R126): the reserved select. -/
  | reserved7
deriving DecidableEq, Repr

/-- What a decoder is given: the bytes of a call at the host port, or the wire bytes of a frame in the
direction it travels (R131: "in the direction it is decoding"). -/
inductive Packet
  | call (bytes : List Byte)
  | tx (bytes : List Byte)
  | rx (bytes : List Byte)
deriving DecidableEq, Repr

/-- The bytes of a packet. -/
def Packet.bytes : Packet → List Byte
  | .call bs => bs
  | .tx bs => bs
  | .rx bs => bs

end Sys2Proof
end

