-- ==== Sys2Proof/Machine/Checksum.lean ====
section
/-! DEFINITION. The checksum encoder: `CK_ref` (R225, R226), the parameter `Cfg.CK` (R224), and the wire bytes it
reads (R70, R240). -/

namespace Sys2Proof.Machine

/-- One bit of R226's inner loop. -/
def crcBit (c : Word) : Word :=
  if c.msb then (c <<< 1) ^^^ 0x1021 else c <<< 1

/-- One byte of R226's outer loop: into the high half, then eight bits. -/
def crcByte (c : Word) (b : Byte) : Word :=
  Nat.repeat crcBit 8 (c ^^^ (b ++ (0 : Byte)))

/-- `CK_ref` (R226): CRC-16/CCITT-FALSE over a byte sequence. -/
def ckRef (s : List Byte) : Word := s.foldl crcByte 0xFFFF

/-- `Cfg.CK` (R224). -/
def runCk : CkAlg → List Byte → Word
  | .crc16ccitt, s => ckRef s
  | .other k, s => Config.otherCk k s

/-- The N + 4 words of a frame in logical order (R33, R240). -/
def frameWords (f : Frame) : List Word :=
  [f.cc, f.page, f.offset] ++ f.payload ++ [f.cksum]

/-- Word i of a frame register file: `TXF[i]`, `RXF[i]` (R14, R33). -/
def frameWord (f : Frame) (i : Nat) : Word := (frameWords f).getD i 0

/-- ENCODE, also `WireBytes` (R240): low byte of each word first. -/
def wireBytes (f : Frame) : List Byte :=
  (frameWords f).flatMap fun w => [loByte w, hiByte w]

/-- CKSUM (R220, R223): over the wire bytes with the checksum word taken as 0. -/
def cksum (c : Cfg) (f : Frame) : Word := runCk c.ck (wireBytes { f with cksum := 0 })

/-- `Seal` (R227). -/
def sealFrame (c : Cfg) (f : Frame) : Frame := { f with cksum := cksum c f }

/-- `Verify` (R228). -/
def verify (c : Cfg) (f : Frame) : Bool := cksum c f == f.cksum

end Sys2Proof.Machine
end

