-- ==== Sys2Proof/Machine/Framer.lean ====
section
/-! DEFINITION. The register packet framer: DECODE (R241), the three constructors of the frames the block sends
(R246, R248, R249), the parser of the one it reads (R250), and the frame each received row stands for. -/

namespace Sys2Proof.Machine

/-- Pairs of wire bytes as words, low byte first (R241). -/
def wordsOfBytes : List Byte → List Word
  | lo :: hi :: rest => wordOf lo hi :: wordsOfBytes rest
  | _ => []

/-- The frame of N + 4 words in logical order (R241). -/
def frameOfWords (n : Nat) (w : List Word) : Frame where
  cc := w.getD 0 0
  page := w.getD 1 0
  offset := w.getD 2 0
  payload := (w.drop 3).take n
  cksum := w.getD (n + 3) 0

/-- DECODE (R241): total on any FRAME_BYTES bytes. -/
def decodeFrame (n : Nat) (b : List Byte) : Frame := frameOfWords n (wordsOfBytes b)

/-- commandCode: kind in bits 15:14, count in bits 13:0 (R103, R104). -/
def commandCode (kind : BitVec 2) (count : BitVec 14) : Word := kind ++ count

/-- `F.kind` (R33). -/
def kindOf (cc : Word) : BitVec 2 := cc.extractLsb' 14 2

/-- `F.count` (R33). -/
def countOf (cc : Word) : BitVec 14 := cc.extractLsb' 0 14

/-- `BuildCfgBaud` (R246). -/
def buildCfgBaud (c : Cfg) (b : Word32) : Frame :=
  sealFrame c
    { cc := commandCode c.kWrite 2, page := c.pageCfg, offset := 0, payload := baudPayload c.n b, cksum := 0 }

/-- `BuildDataWr` (R248). -/
def buildDataWr (c : Cfg) (d : List Byte) : Frame :=
  sealFrame c
    { cc := commandCode c.kWrite (BitVec.ofNat 14 c.n), page := c.pageData, offset := countWord d.length,
      payload := packBytes c.n d, cksum := 0 }

/-- `BuildDataRd` (R249). -/
def buildDataRd (c : Cfg) : Frame :=
  sealFrame c
    { cc := commandCode c.kRead 0, page := c.pageData, offset := 0, payload := List.replicate c.n 0, cksum := 0 }

/-- The result of `ParseRsp` (R250). -/
structure ParsedRsp where
  /-- match: the page is PAGE_DATA. -/
  pageMatches : Bool
  /-- cnt: the offset field, 0 to 65535. -/
  cnt : Nat
  /-- All the payload bytes; the caller takes a prefix. -/
  bytes : List Byte
deriving DecidableEq, Repr

/-- `ParseRsp` (R250): it reads neither cc nor cksum and does not clamp. -/
def parseRsp (c : Cfg) (f : Frame) : ParsedRsp where
  pageMatches := f.page == c.pageData
  cnt := f.offset.toNat
  bytes := unpackBytes f.payload c.payloadBytes

/-- The received frame a DATARSP stands for (R117). -/
def rspToFrame (c : Cfg) (r : RspFrame) : Frame where
  cc := r.cc
  page := c.pageData
  offset := r.cnt
  payload := r.payload
  cksum := r.cksum

/-- The frame a class row stands for, given its kind code (R118, R119). -/
def classToFrame (kind : BitVec 2) (f : ClassFrame) : Frame where
  cc := commandCode kind f.count
  page := f.page
  offset := f.offset
  payload := f.payload
  cksum := f.cksum

end Sys2Proof.Machine
end

