-- ==== Sys2Proof/WellFormed.lean ====
section
/-! DEFINITION. Which instructions are well formed under a configuration: the operand ranges of R108, R111, R118. -/

namespace Sys2Proof

/-- Whether a specific row describes a frame with this header: CFGBAUD, DATAWR or DATARD for a frame that is sent
(R114 to R116), DATARSP for one that is received (R117). -/
def specificRow (c : Cfg) (dir : Dir) (cc page offset : Word) : Bool :=
  match dir with
  | .tx =>
    decide (cc = c.kWrite ++ (2 : BitVec 14) ∧ page = c.pageCfg ∧ offset = 0) ||
    decide (cc = c.kWrite ++ BitVec.ofNat 14 c.n ∧ page = c.pageData) ||
    decide (cc = c.kRead ++ (0 : BitVec 14) ∧ page = c.pageData ∧ offset = 0)
  | .rx => decide (page = c.pageData)

/-- A class row describes a frame of exactly N payload words (R101) that no specific row describes (R118). -/
def ClassFrame.wf (c : Cfg) (kind : BitVec 2) (f : ClassFrame) : Bool :=
  decide (f.payload.length = c.n) && !specificRow c f.dir (kind ++ f.count) f.page f.offset

/-- A response has exactly N payload words (R101). -/
def RspFrame.wf (c : Cfg) (r : RspFrame) : Bool :=
  decide (r.payload.length = c.n)

/-- Well-formed instructions. The operands of the host operations are bounded by their types alone (R125). -/
def Instr.wf (c : Cfg) : Instr → Bool
  | .cfgbaud _ => true
  | .datawr d => decide (d.length ≤ c.payloadBytes)
  | .datard => true
  | .datarsp r => r.wf c
  | .rd f => f.wf c c.kRead
  | .wr f => f.wf c c.kWrite
  | .bulk f => f.wf c c.kBulk
  | .k3 f => f.wf c c.kReserved
  | .begin _ _ _ => true
  | .write _ => true
  | .read _ => true
  | .isext => true
  | .tryacq => true
  | .rel => true
  | .tick => true
  | .reserved7 => true

end Sys2Proof
end

