-- ==== Sys2Proof/Decode.lean ====
section
/-! DEFINITION. The decoder, total on any bytes and rejecting by name, and after it the encoder. Frames are decoded
by the rows of the opcode table over the header H = cc ++ page ++ offset (R113, R131), in the direction they
travel; calls by the 3-bit select of R125, with the operand bytes of log entry 9. -/

namespace Sys2Proof

open Machine

/-- Why bytes decode to no instruction. -/
inductive Reject
  /-- A call of no bytes has no select. -/
  | emptyCall
  /-- Bits 7:3 of the select byte are not 0: the select has three bits (R125). -/
  | highSelectBits
  /-- The operand bytes of the call end too soon. -/
  | truncatedOperands
  /-- Bytes follow the last operand of the call. -/
  | trailingOperands
  /-- A frame that is not FRAME_BYTES long (R101). -/
  | frameLength
  /-- A transmitted DATAWR whose byte count exceeds 2 N, which the block cannot produce (R122). -/
  | byteCountOverCapacity
deriving DecidableEq, Repr

/-! ### The frame rows of the opcode table -/

/-- The logical header H (R113): commandCode in bits 47:32, page in 31:16, offset in 15:0. -/
def header (f : Frame) : BitVec 48 := f.cc ++ (f.page ++ f.offset)

/-- A frame row of the opcode table: match and mask over H (R131). -/
structure FrameRow where
  bits : BitVec 48
  mask : BitVec 48
deriving DecidableEq, Repr

/-- Whether a frame matches a row. -/
def FrameRow.matches (r : FrameRow) (f : Frame) : Bool := header f &&& r.mask == r.bits

/-- A row over cc, page and offset, each with its own mask. -/
def frameRow (cc page offset ccMask pageMask offsetMask : Word) : FrameRow where
  bits := cc ++ (page ++ offset)
  mask := ccMask ++ (pageMask ++ offsetMask)

/-- CFGBAUD (R114). -/
def rowCfgbaud (c : Cfg) : FrameRow :=
  frameRow (commandCode c.kWrite 2) c.pageCfg 0 0xFFFF 0xFFFF 0xFFFF

/-- DATAWR (R115). -/
def rowDatawr (c : Cfg) : FrameRow :=
  frameRow (commandCode c.kWrite (BitVec.ofNat 14 c.n)) c.pageData 0 0xFFFF 0xFFFF 0

/-- DATARD (R116). -/
def rowDatard (c : Cfg) : FrameRow :=
  frameRow (commandCode c.kRead 0) c.pageData 0 0xFFFF 0xFFFF 0xFFFF

/-- DATARSP (R117). -/
def rowDatarsp (c : Cfg) : FrameRow :=
  frameRow 0 c.pageData 0 0 0xFFFF 0

/-- A class row (R118, R119): the kind alone. -/
def rowClass (kind : BitVec 2) : FrameRow :=
  frameRow (commandCode kind 0) 0 0 0xC000 0 0

/-- A frame without its kind, in the direction it travels. -/
def classOf (dir : Dir) (f : Frame) : ClassFrame where
  dir := dir
  count := countOf f.cc
  page := f.page
  offset := f.offset
  payload := f.payload
  cksum := f.cksum

/-- A frame without its page. -/
def rspOf (f : Frame) : RspFrame where
  cc := f.cc
  cnt := f.offset
  payload := f.payload
  cksum := f.cksum

/-- The class rows, which complete the map in both directions (R118, R119): one of them matches every frame. -/
def decodeClass (c : Cfg) (dir : Dir) (f : Frame) : Instr :=
  if (rowClass c.kRead).matches f then .rd (classOf dir f)
  else if (rowClass c.kWrite).matches f then .wr (classOf dir f)
  else if (rowClass c.kBulk).matches f then .bulk (classOf dir f)
  else .k3 (classOf dir f)

/-- Decoding a received frame: the specific row DATARSP first, then the class rows (R131). No received frame is
illegal (R121), so this is total. -/
def decodeRx (c : Cfg) (f : Frame) : Instr :=
  if (rowDatarsp c).matches f then .datarsp (rspOf f) else decodeClass c .rx f

/-- Whether a specific row of the transmit direction matches. -/
def sentRow (c : Cfg) (f : Frame) : Bool :=
  (rowCfgbaud c).matches f || (rowDatawr c).matches f || (rowDatard c).matches f

/-- Decoding a transmitted frame: the specific rows CFGBAUD, DATAWR and DATARD first, then the class rows (R131).
Only the header and the operands are read; the checksum word is not an operand (R129). -/
def decodeTx (c : Cfg) (f : Frame) : Except Reject Instr :=
  if (rowCfgbaud c).matches f then .ok (.cfgbaud (baudOf (f.payload.getD 0 0) (f.payload.getD 1 0)))
  else if (rowDatawr c).matches f then
    if f.offset.toNat ≤ c.payloadBytes then .ok (.datawr (unpackBytes f.payload f.offset.toNat))
    else .error .byteCountOverCapacity
  else if (rowDatard c).matches f then .ok .datard
  else .ok (decodeClass c .tx f)

/-! ### Calls at the host port -/

/-- A natural-number operand: seven bits a byte, least significant first, bit 7 set on every byte but the last. -/
def decodeNat : List Byte → Option (Nat × List Byte)
  | [] => none
  | b :: bs =>
    if b.toNat < 128 then some (b.toNat, bs)
    else
      match decodeNat bs with
      | none => none
      | some (n, rest) => some (b.toNat - 128 + 128 * n, rest)

/-- The operands of BEGIN: baudRate as four bytes, low byte first, then rxCapacity and txCapacity (R141). -/
def decodeBegin : List Byte → Except Reject Instr
  | b0 :: b1 :: b2 :: b3 :: rest =>
    match decodeNat rest with
    | none => .error .truncatedOperands
    | some (rx, rest') =>
      match decodeNat rest' with
      | none => .error .truncatedOperands
      | some (tx, []) => .ok (.begin (baudOf (wordOf b0 b1) (wordOf b2 b3)) rx tx)
      | some (_, _ :: _) => .error .trailingOperands
  | _ => .error .truncatedOperands

/-- The operand of READ: a maximum length (R149). -/
def decodeRead (bs : List Byte) : Except Reject Instr :=
  match decodeNat bs with
  | none => .error .truncatedOperands
  | some (n, []) => .ok (.read n)
  | some (_, _ :: _) => .error .trailingOperands

/-- An operation without operands. -/
def decodeBare (i : Instr) : List Byte → Except Reject Instr
  | [] => .ok i
  | _ :: _ => .error .trailingOperands

/-- The operation select of R125, and its reserved code 7 (R126). -/
def decodeSelect (sel : BitVec 3) (operands : List Byte) : Except Reject Instr :=
  if sel = 0 then decodeBegin operands
  else if sel = 1 then .ok (.write operands)
  else if sel = 2 then decodeRead operands
  else if sel = 3 then decodeBare .isext operands
  else if sel = 4 then decodeBare .tryacq operands
  else if sel = 5 then decodeBare .rel operands
  else if sel = 6 then decodeBare .tick operands
  else decodeBare .reserved7 operands

/-- Decoding a call: the select in bits 2:0 of the first byte, then the operands. -/
def decodeCall : List Byte → Except Reject Instr
  | [] => .error .emptyCall
  | b :: operands =>
    if b.extractLsb' 3 5 = 0 then decodeSelect (b.extractLsb' 0 3) operands
    else .error .highSelectBits

/-- The decoder: a call, or a frame in one direction, which must be FRAME_BYTES long (R101). -/
def decode (c : Cfg) : Packet → Except Reject Instr
  | .call bs => decodeCall bs
  | .tx bs => if bs.length = c.frameBytes then decodeTx c (decodeFrame c.n bs) else .error .frameLength
  | .rx bs => if bs.length = c.frameBytes then .ok (decodeRx c (decodeFrame c.n bs)) else .error .frameLength

/-! ### The encoder -/

/-- The bytes of a natural-number operand; `fuel` bounds the number of bytes after the first. -/
def encodeNatFuel : Nat → Nat → List Byte
  | 0, n => [BitVec.ofNat 8 n]
  | fuel + 1, n =>
    if n < 128 then [BitVec.ofNat 8 n]
    else BitVec.ofNat 8 (128 + n % 128) :: encodeNatFuel fuel (n / 128)

/-- The bytes of a natural-number operand. -/
def encodeNat (n : Nat) : List Byte := encodeNatFuel n.log2 n

/-- The four bytes of a baud-rate operand, low byte first. -/
def encodeBaud (b : Word32) : List Byte :=
  [loByte (baudLow b), hiByte (baudLow b), loByte (baudHigh b), hiByte (baudHigh b)]

/-- The packet of a frame's wire bytes in one direction. -/
def framePacket (dir : Dir) (f : Frame) : Packet :=
  match dir with
  | .tx => .tx (wireBytes f)
  | .rx => .rx (wireBytes f)

/-- The encoder: sealed wire bytes for the frames the block sends (R129), the wire bytes of the frame as it is
for the others, and select and operands for a call. -/
def encode (c : Cfg) : Instr → Packet
  | .cfgbaud b => .tx (wireBytes (buildCfgBaud c b))
  | .datawr d => .tx (wireBytes (buildDataWr c d))
  | .datard => .tx (wireBytes (buildDataRd c))
  | .datarsp r => .rx (wireBytes (rspToFrame c r))
  | .rd f => framePacket f.dir (classToFrame c.kRead f)
  | .wr f => framePacket f.dir (classToFrame c.kWrite f)
  | .bulk f => framePacket f.dir (classToFrame c.kBulk f)
  | .k3 f => framePacket f.dir (classToFrame c.kReserved f)
  | .begin b rx tx => .call (0x00 :: (encodeBaud b ++ encodeNat rx ++ encodeNat tx))
  | .write d => .call (0x01 :: d)
  | .read n => .call (0x02 :: encodeNat n)
  | .isext => .call [0x03]
  | .tryacq => .call [0x04]
  | .rel => .call [0x05]
  | .tick => .call [0x06]
  | .reserved7 => .call [0x07]

/-! ### The opcode table's own numbering -/

/-- The frame whose header is H = w (R131) and whose other words are 0. -/
def tableFrame (c : Cfg) (w : Nat) : Frame where
  cc := BitVec.ofNat 16 (w >>> 32)
  page := BitVec.ofNat 16 (w >>> 16)
  offset := BitVec.ofNat 16 w
  payload := List.replicate c.n 0
  cksum := 0

/-- A call whose first byte is w and whose operands are 0 (an empty sequence of bytes for WRITE). -/
def tableCall (w : Nat) : List Byte :=
  BitVec.ofNat 8 w ::
    (if w % 8 = 0 then [0, 0, 0, 0, 0, 0] else if w % 8 = 2 then [0] else [])

/-- The packet the table's bits stand for. A row of at most 8 bits is a call. A row of more bits is a frame: one
whose bits do not reach commandCode (DATARSP) is a received frame; one that reaches it is a transmitted frame
where a specific transmitted row describes it, and a received one otherwise (log entry 10). -/
def tablePacket (c : Cfg) (nbits w : Nat) : Packet :=
  if nbits ≤ 8 then .call (tableCall w)
  else if nbits ≤ 32 then .rx (wireBytes (tableFrame c w))
  else if sentRow c (tableFrame c w) then .tx (wireBytes (tableFrame c w))
  else .rx (wireBytes (tableFrame c w))

/-- The instruction the decoder reads from the table's bits, under the reference `Cfg` the table is computed for. -/
def decodeTableWord (nbits w : Nat) : Option Instr :=
  match decode Cfg.reference (tablePacket Cfg.reference nbits w) with
  | .ok i => some i
  | .error _ => none

end Sys2Proof
end

