-- ==== Sys2Proof/Machine/State.lean ====
section
/-! DEFINITION. The parameters of the step relation (R61) in a record of their own, and the state record: the block's
own state (R30), ENV's that the rules read (R52 to R57), what the agents will do next, and the history of what was seen
outside (R270). `State` is the two together, since a step is a function of one argument. Plain data throughout. Faults
and refusals, and reset (R58). -/

namespace Sys2Proof.Machine

/-- `tpc` (R35): the tick sequencer's step register. -/
inductive TickStep
  | idle | cfgXfer | cfgSettle | cfgDone | budget | wrXfer | wrSettle | rdXfer | rdSettle | unlock | inspect | finish
deriving DecidableEq, Repr

/-- `bpc` (R37): the BEGIN sequencer's step register. -/
inductive BeginStep
  | idle | wait
deriving DecidableEq, Repr

/-- `MODE` (R41): the source's BridgeMode. -/
inductive Mode
  | uninit | passthrough | bridged
deriving DecidableEq, Repr

/-- `LOCK` (R53): free, held by this block, or held by another user of the bus. -/
inductive Lock
  | free | own | other
deriving DecidableEq, Repr

/-- A byte FIFO with its capacity (R44 to R47): the bytes oldest first. -/
structure Fifo where
  bytes : List Byte
  /-- `CAP_OUT` or `CAP_IN`, an unbounded natural (R44). -/
  cap : Nat
deriving DecidableEq, Repr

/-- Which lock attempt failed (R270 E1). -/
inductive LockSite
  | handshake | exchange
deriving DecidableEq, Repr

/-- Which buffer (R270 E2). -/
inductive Side
  | rx | tx
deriving DecidableEq, Repr

/-- The nine events E1 to E9 (R270). None is a trap (R282). -/
inductive Event
  | busLockUnavailable (site : LockSite)
  | capacityClamped (side : Side)
  | allocationFailed
  | checksumMismatch
  | pageMismatch
  | rateGated
  | notInitialized
  | tickOverlapped
  | inboundTruncated (lost : Nat)
deriving DecidableEq, Repr

/-- An operation delegated whole to the physical UART driver (R140, R294). -/
inductive Delegation
  | begin (baudRate : Word32) (rxCapacity txCapacity : Nat)
  | write (bytes : List Byte)
  | read (maxLength : Nat)
  | tryacq
  | rel
  | tick
deriving DecidableEq, Repr

/-- What a host operation returns to APP (R125). -/
inductive Result
  /-- BEGIN and REL return nothing. -/
  | none
  /-- WRITE: bytesAccepted. -/
  | accepted (n : Nat)
  /-- READ: the bytes, whose number is bytesReturned. -/
  | bytes (v : List Byte)
  /-- ISEXT and TRYACQ. -/
  | bool (b : Bool)
deriving DecidableEq, Repr

/-- What is seen outside the block: a frame presented to the bus (R78), an event (R16 `raise`), a result, a
delegation. -/
inductive Obs
  | sent (f : Frame)
  | event (e : Event)
  | returned (r : Result)
  | delegated (d : Delegation)
deriving DecidableEq, Repr

/-- What ENV answers to each `Draw` (R16, R61), a parameter that no step writes: answer k of a kind is entry k of
its list, and beyond the list a free value of Config numbered k (log entry 7). -/
structure Draws where
  extOk : List Bool
  allocIn : List Bool
  allocOut : List Bool
  /-- The wire bytes received in each bus transaction (R80). -/
  rx : List (List Byte)
  uartAccepted : List Nat
  uartBytes : List (List Byte)
  uartAcquired : List Bool
deriving DecidableEq, Repr

/-- The model's own counters: how many draws of each kind have been made, so which answer comes next. -/
structure Drawn where
  extOk : Nat
  /-- Both allocations are drawn in the same step (R143). -/
  alloc : Nat
  rx : Nat
  uartAccepted : Nat
  uartBytes : Nat
  uartAcquired : Nat
deriving DecidableEq, Repr

/-- One turn of the interleaving (R12, R128): which agent moves, and for ENV what it does. -/
inductive Turn
  /-- APP: completes or re-polls BEGIN, or issues its next operation. -/
  | app
  /-- TICKER: the TICK strobe (R280). -/
  | strobe
  /-- TICKER: the micro-step that `tpc` names (R170). -/
  | micro
  /-- ENV: the clock advances (R54). -/
  | advance (us : Nat)
  /-- ENV: another user takes the bus lock if it is free (R53). -/
  | busTaken
  /-- ENV: another user that holds the bus lock releases it (R53). -/
  | busReleased
deriving DecidableEq, Repr

/-- The parameters of the step relation (R61): no step writes them, and a claim quantifies over them. -/
structure Params where
  /-- `Cfg` (R8): no operation writes it (R50). -/
  cfg : Cfg
  /-- Every `Draw` (R16, R56, R57, R80, R153). -/
  draws : Draws
deriving DecidableEq, Repr

/-- The state record, without the parameters (R61). -/
structure Live where
  /-- `TXF` (R31). -/
  txf : Frame
  /-- `RXF` (R32). -/
  rxf : Frame
  /-- `tpc` (R35). -/
  tpc : TickStep
  /-- `bpc` (R37). -/
  bpc : BeginStep
  /-- `PENDING` (R38). -/
  pending : Bool
  /-- `BUSY` (R39). -/
  busy : Bool
  /-- `MODE` (R41). -/
  mode : Mode
  /-- `BAUD` (R42). -/
  baud : Word32
  /-- `LAST_TS` (R43). -/
  lastTs : Word32
  /-- `BUS_HANDLE` (R49). -/
  busHandle : Bool
  /-- `NTX` (R48). -/
  ntx : Nat
  /-- `OUT` and `CAP_OUT` (R44, R45). -/
  outF : Fifo
  /-- `IN` and `CAP_IN` (R44, R46). -/
  inF : Fifo
  /-- `LOCK` (R53), ENV's. -/
  lock : Lock
  /-- `CLK` (R54), ENV's: microseconds. -/
  clk : Nat
  /-- Which answer of each kind comes next. -/
  drawn : Drawn
  /-- The operations APP will issue, each as the bytes of its call, next first (R154). -/
  app : List (List Byte)
  /-- The turns the agents take, next first (R12). -/
  sched : List Turn
  /-- History, oldest first; no step reads it (R270). -/
  trace : List Obs
deriving DecidableEq, Repr

/-- What a step is a function of: the parameters and the state record (R61, log entry 6). -/
structure State extends Params, Live
deriving DecidableEq, Repr

/-- Stops that mean a precondition of the spec is violated. No state the machine can reach from reset raises one
(R192), so all are safe. -/
inductive Fault
  /-- Raised by `busXfer`: a bus transaction without `LOCK = OWN` (R78). Safe. -/
  | busNotOwned
  /-- Raised by `unlock`: an Unlock without `LOCK = OWN` (R53). Safe. -/
  | unlockNotOwned
  /-- Raised by `execDatawr` and `execRead`: FifoPop of more bytes than the FIFO holds (R15). Safe. -/
  | fifoUnderflow
  /-- Raised by `execWrite` and `inboundCopy`: FifoPush of more bytes than the FIFO has room for (R15). Safe. -/
  | fifoOverflow
  /-- Raised by `execDatawr`: more stream bytes than a frame carries (R244, R248). Safe. -/
  | payloadOverflow
deriving DecidableEq, Repr

/-- What the model refuses: the machine gives it no meaning. All are safe: the run stops. -/
inductive Refusal
  /-- Raised by an arm of `exec` whose instruction has no meaning yet. Safe. -/
  | notModelled (mnemonic : String)
  /-- Raised by `step`: a `Cfg` outside its ranges (R10, U6). Safe. -/
  | cfgOutOfRange
  /-- Raised by `appTurn`: the bytes of a call decode to no operation. Safe. -/
  | undecodable (why : Reject)
  /-- Raised by `appTurn`: APP issues operation select 6. TICK is TICKER's alone (R11, R125); a second context that
  runs it is outside the model (U19, log entry 23). Safe. -/
  | tickByApp
  /-- Raised by the APP operations: APP is inside BEGIN and has no other enabled step (R37), a second APP context
  is outside the model (D32). Safe. -/
  | appBlocked
  /-- Raised by `execBegin`: BEGIN when `MODE = BRIDGED` (R147, U4). Safe. -/
  | beginWhileBridged
  /-- Raised by `execRel`: REL outside its precondition (R152, U5). Safe. -/
  | relWithoutAcquire
  /-- Raised by `execReserved7`: operation select 7 (R126, U8). Safe. -/
  | reservedSelect
  /-- Raised by the frame instructions: a frame that the sequencer does not send or inspect at this step; no raw
  frame can be injected (R122). Safe. -/
  | frameNotDue
deriving DecidableEq, Repr

/-- The outcome of a meaning. -/
abbrev Outcome := Host.Outcome State Fault Refusal

/-- A FIFO that is not allocated: empty, with capacity 0 (R58). -/
def Fifo.unallocated : Fifo := { bytes := [], cap := 0 }

/-- The frame register files before anything was written: N + 4 zero words (log entry 2). -/
def Frame.zero (n : Nat) : Frame :=
  { cc := 0, page := 0, offset := 0, payload := List.replicate n 0, cksum := 0 }

/-- No answer of ENV is scripted: every one is a free value. -/
def Draws.unscripted : Draws :=
  { extOk := [], allocIn := [], allocOut := [], rx := [], uartAccepted := [], uartBytes := [], uartAcquired := [] }

/-- No draw has been made. -/
def Drawn.none : Drawn := { extOk := 0, alloc := 0, rx := 0, uartAccepted := 0, uartBytes := 0, uartAcquired := 0 }

/-- The state after reset under a given configuration (R58, R311). -/
def State.resetWith (c : Cfg) : State where
  cfg := c
  draws := Draws.unscripted
  txf := Frame.zero c.n
  rxf := Frame.zero c.n
  tpc := .idle
  bpc := .idle
  pending := false
  busy := false
  mode := .uninit
  baud := 0
  lastTs := 0
  busHandle := false
  ntx := 0
  outF := Fifo.unallocated
  inF := Fifo.unallocated
  lock := .free
  clk := 0
  drawn := Drawn.none
  app := []
  sched := []
  trace := []

/-- The state after reset under the reference configuration (R8, R58). -/
def State.reset : State := State.resetWith Cfg.reference

end Sys2Proof.Machine
end

