-- ==== Sys2Proof/Machine/Flags.lean ====
section
/-! DEFINITION. The flags PENDING and BUSY (R38, R39), the facts that are functions of other state (R40, R59, R317),
and the numbers the spec gives `tpc`, `bpc` and `MODE` (R35, R37, R41). There are no arithmetic flags. -/

namespace Sys2Proof.Machine

/-- The number of a `tpc` value (R35). -/
def TickStep.code : TickStep → Nat
  | .idle => 0
  | .cfgXfer => 1
  | .cfgSettle => 2
  | .cfgDone => 3
  | .budget => 4
  | .wrXfer => 5
  | .wrSettle => 6
  | .rdXfer => 7
  | .rdSettle => 8
  | .unlock => 9
  | .inspect => 10
  | .finish => 11

/-- The number of a `bpc` value (R37). -/
def BeginStep.code : BeginStep → Nat
  | .idle => 0
  | .wait => 1

/-- The number of a `MODE` value (R41). -/
def Mode.code : Mode → Nat
  | .uninit => 0
  | .passthrough => 1
  | .bridged => 2

/-- `T_CFG_XFER` to `T_CFG_DONE`: the baud handshake (R35). -/
def TickStep.inHandshake : TickStep → Bool
  | .cfgXfer | .cfgSettle | .cfgDone => true
  | .idle | .budget | .wrXfer | .wrSettle | .rdXfer | .rdSettle | .unlock | .inspect | .finish => false

/-- `T_BUDGET` to `T_FINISH`: the exchange (R35, R59 (b)). -/
def TickStep.inExchange : TickStep → Bool
  | .budget | .wrXfer | .wrSettle | .rdXfer | .rdSettle | .unlock | .inspect | .finish => true
  | .idle | .cfgXfer | .cfgSettle | .cfgDone => false

/-- The steps during which the tick holds the bus lock (R59 (a)). -/
def TickStep.holdsLock : TickStep → Bool
  | .cfgXfer | .cfgSettle | .cfgDone | .budget | .wrXfer | .wrSettle | .rdXfer | .rdSettle | .unlock => true
  | .idle | .inspect | .finish => false

/-- `initialized` is not a flag: it is `MODE = BRIDGED` (R40). -/
def State.initialized (s : State) : Bool := s.mode == .bridged

/-- A quiescent state: no tick and no BEGIN in progress (R317). -/
def State.quiescent (s : State) : Bool := s.tpc == .idle && s.bpc == .idle

/-- APP holds the lock through TRYACQ: it is owned by this block and by no tick (R59 (a), log entry 13). -/
def State.appHoldsLock (s : State) : Bool := s.lock == .own && !s.tpc.holdsLock

/-- Post the baud request: `BAUD` is written, then `PENDING` set (R88, R143). -/
def State.postBaud (s : State) (b : Word32) : State := { s with baud := b, pending := true }

/-- `PENDING <- 0` (R176). -/
def State.clearPending (s : State) : State := { s with pending := false }

/-- `BUSY <- 1` (R179). -/
def State.setBusy (s : State) : State := { s with busy := true }

/-- `BUSY <- 0` (R179, R190). -/
def State.clearBusy (s : State) : State := { s with busy := false }

end Sys2Proof.Machine
end

