-- ==== Sys2Proof/Machine/Ops.lean ====
section
/-! DEFINITION. The shared operations: the history (R16 `raise`), the sequencer's move, the bus lock (R53), the
clock (R54), ENV's draws (R16), the FIFOs (R15), the bus transaction (R78), and which frame the sequencer sends or
inspects. The block has no exception and no return from one (R282, R283); raising an event is the nearest thing,
and it only records. -/

namespace Sys2Proof.Machine

/-- Continue with the next state, or stop as the first outcome did. -/
def thenDo (o : Outcome) (k : State → Outcome) : Outcome :=
  match o with
  | .next s => k s
  | .fault r => .fault r
  | .refused r => .refused r

/-- Append to the history; nothing else changes (R270). -/
def State.emit (s : State) (o : Obs) : State := { s with trace := s.trace ++ [o] }

/-- `raise <Event>(info)` (R16): it records the event and changes nothing else. -/
def State.raise (s : State) (e : Event) : State := s.emit (.event e)

/-- Raise an event if a condition holds. -/
def State.raiseIf (s : State) (b : Bool) (e : Event) : State := if b then s.raise e else s

/-- An operation returns its result to APP. -/
def State.returns (s : State) (r : Result) : State := s.emit (.returned r)

/-- Delegate an operation whole to the physical UART driver (R140). -/
def State.delegate (s : State) (d : Delegation) : State := s.emit (.delegated d)

/-- `tpc <- T_X` (R14, R36). -/
def State.goto (s : State) (t : TickStep) : State := { s with tpc := t }

/-! ### The bus lock -/

/-- Whether `TryLock()` succeeds (R53): the lock is free; it is not recursive. -/
def State.lockFree (s : State) : Bool := s.lock == .free

/-- `LOCK <- OWN`, the effect of a successful `TryLock()` (R53). -/
def State.takeLock (s : State) : State := { s with lock := .own }

/-- `TryLock()` (R53): the result and the state after. It never waits. -/
def State.tryLock (s : State) : Bool × State :=
  if s.lockFree then (true, s.takeLock) else (false, s)

/-- `Unlock()` (R53): precondition `LOCK = OWN`. -/
def unlock (s : State) : Outcome :=
  if s.lock = .own then .next { s with lock := .free } else .fault .unlockNotOwned

/-- ENV: another user takes the lock; possible only from FREE (R53). -/
def State.busTaken (s : State) : State :=
  match s.lock with
  | .free => { s with lock := .other }
  | .own => s
  | .other => s

/-- ENV: another user releases the lock; possible only from OTHER (R53). -/
def State.busReleased (s : State) : State :=
  match s.lock with
  | .other => { s with lock := .free }
  | .own => s
  | .free => s

/-! ### The clock -/

/-- `Now()` (R54): `CLK mod 2^32`. -/
def State.now (s : State) : Word32 := BitVec.ofNat 32 s.clk

/-- ENV: the clock advances by any amount (R54). -/
def State.advance (s : State) (us : Nat) : State := { s with clk := s.clk + us }

/-! ### Draws -/

/-- How many draws of each kind have been made. -/
def State.setDrawn (s : State) (d : Drawn) : State := { s with drawn := d }

/-- `Draw(ext_ok)` (R56). -/
def State.extOk (s : State) : Bool := s.draws.extOk.getD s.drawn.extOk (Config.freeExtOk s.drawn.extOk)

/-- `ext_ok` has been drawn. -/
def State.drewExtOk (s : State) : State := s.setDrawn { s.drawn with extOk := s.drawn.extOk + 1 }

/-- `Draw(alloc_in)` (R57). -/
def State.allocIn (s : State) : Bool := s.draws.allocIn.getD s.drawn.alloc (Config.freeAllocIn s.drawn.alloc)

/-- `Draw(alloc_out)` (R57). -/
def State.allocOut (s : State) : Bool := s.draws.allocOut.getD s.drawn.alloc (Config.freeAllocOut s.drawn.alloc)

/-- Both allocations have been drawn. -/
def State.drewAllocs (s : State) : State := s.setDrawn { s.drawn with alloc := s.drawn.alloc + 1 }

/-- `Draw(rx_frame)` (R80): any FRAME_BYTES bytes; each byte that is not scripted is free. -/
def State.rxBytes (s : State) : List Byte :=
  (List.range s.cfg.frameBytes).map fun k =>
    (s.draws.rx.getD s.drawn.rx []).getD k (Config.freeRxByte s.drawn.rx k)

/-- A received frame has been drawn. -/
def State.drewRx (s : State) : State := s.setDrawn { s.drawn with rx := s.drawn.rx + 1 }

/-- The physical UART driver's answer to a delegated WRITE (R153). -/
def State.uartAccepted (s : State) : Nat :=
  s.draws.uartAccepted.getD s.drawn.uartAccepted (Config.freeUartAccepted s.drawn.uartAccepted)

/-- The answer to a delegated WRITE has been drawn. -/
def State.drewUartAccepted (s : State) : State :=
  s.setDrawn { s.drawn with uartAccepted := s.drawn.uartAccepted + 1 }

/-- The physical UART driver's answer to a delegated READ (R153). -/
def State.uartBytes (s : State) : List Byte :=
  s.draws.uartBytes.getD s.drawn.uartBytes (Config.freeUartBytes s.drawn.uartBytes)

/-- The answer to a delegated READ has been drawn. -/
def State.drewUartBytes (s : State) : State := s.setDrawn { s.drawn with uartBytes := s.drawn.uartBytes + 1 }

/-- The answer to a delegated TRYACQ (R140, log entry 12). -/
def State.uartAcquired (s : State) : Bool :=
  s.draws.uartAcquired.getD s.drawn.uartAcquired (Config.freeUartAcquired s.drawn.uartAcquired)

/-- The answer to a delegated TRYACQ has been drawn. -/
def State.drewUartAcquired (s : State) : State :=
  s.setDrawn { s.drawn with uartAcquired := s.drawn.uartAcquired + 1 }

/-! ### The FIFOs -/

/-- `|F|`, the number of bytes held (R14). -/
def Fifo.size (f : Fifo) : Nat := f.bytes.length

/-- Free space, `CAP_F - |F|` (R45, R46). -/
def Fifo.free (f : Fifo) : Nat := f.cap - f.bytes.length

/-- The form every reachable FIFO has: `|F| ≤ CAP_F` (R45, R46). -/
def Fifo.wf (f : Fifo) : Bool := decide (f.bytes.length ≤ f.cap)

/-- `FifoPop(F, n)` (R15): the n oldest bytes, and what is left; none where the precondition `n ≤ |F|` fails. -/
def Fifo.pop (f : Fifo) (n : Nat) : Option (List Byte × Fifo) :=
  if n ≤ f.size then some (f.bytes.take n, { f with bytes := f.bytes.drop n }) else none

/-- `FifoPush(F, v)` (R15): v after the bytes held; none where the precondition fails, that is where v does not
fit into the free space. -/
def Fifo.push (f : Fifo) (v : List Byte) : Option Fifo :=
  if v.length ≤ f.free then some { f with bytes := f.bytes ++ v } else none

/-! ### The bus -/

/-- `BusXfer` (R78) of a frame that is written to TXF first: the frame is presented to the bus, RXF is overwritten
with the frame received. Precondition `LOCK = OWN`. -/
def busXfer (f : Frame) (s : State) : Outcome :=
  if s.lock = .own then
    .next ({ s.drewRx with txf := f, rxf := decodeFrame s.cfg.n s.rxBytes }.emit (.sent f))
  else .fault .busNotOwned

/-- The frame instruction the sequencer runs at this micro-step: the frame it sends at a transfer step (R174, R183,
R185), the received frame it inspects at `T_INSPECT` (R188). -/
def State.frameDue (s : State) : Option Instr :=
  match s.tpc with
  | .cfgXfer => some (.cfgbaud s.baud)
  | .wrXfer => some (.datawr (s.outF.bytes.take s.ntx))
  | .rdXfer => some .datard
  | .inspect => some (decodeRx s.cfg s.rxf)
  | .idle | .cfgSettle | .cfgDone | .budget | .wrSettle | .rdSettle | .unlock | .finish => none

/-- A frame instruction runs only where the sequencer sends or inspects exactly that frame (R122). -/
def whenDue (i : Instr) (s : State) (k : State → Outcome) : Outcome :=
  if s.frameDue = some i then k s else .refused .frameNotDue

/-- An APP operation other than BEGIN's completion runs only while APP is not inside BEGIN (R37, R154). -/
def whenAppFree (s : State) (k : State → Outcome) : Outcome :=
  if s.bpc = .idle then k s else .refused .appBlocked

end Sys2Proof.Machine
end

