-- ==== Sys2Proof/Machine/FrameExchange.lean ====
section
/-! DEFINITION. The frame instructions: the three frames the block sends, each one bus transaction at its
micro-step (R174, R183, R185), and the received frame at `T_INSPECT` (R188): a DATARSP is copied into IN, a frame of
any other class is ignored whole (R117, R118, R121). -/

namespace Sys2Proof.Machine

/-- CFGBAUD at `T_CFG_XFER` (R174, R246). -/
def execCfgbaud (b : Word32) (s : State) : Outcome :=
  whenDue (.cfgbaud b) s fun s =>
    thenDo (busXfer (buildCfgBaud s.cfg b) s) fun s => .next (s.goto .cfgSettle)

/-- DATAWR at `T_WR_XFER` (R183, R248): the NTX oldest bytes of OUT leave in the frame. -/
def execDatawr (d : List Byte) (s : State) : Outcome :=
  whenDue (.datawr d) s fun s =>
    match s.outF.pop s.ntx with
    | none => .fault .fifoUnderflow
    | some (v, f) =>
      if v.length ≤ s.cfg.payloadBytes then
        thenDo (busXfer (buildDataWr s.cfg v) { s with outF := f }) fun s => .next (s.goto .wrSettle)
      else .fault .payloadOverflow

/-- DATARD at `T_RD_XFER` (R185, R249). -/
def execDatard (s : State) : Outcome :=
  whenDue .datard s fun s =>
    thenDo (busXfer (buildDataRd s.cfg) s) fun s => .next (s.goto .rdSettle)

/-- The checksum branch rejects the response (R188, R189): only when RX_CHECK is true. -/
def State.checksumRejects (s : State) : Bool := s.cfg.rxCheck && !verify s.cfg s.rxf

/-- The inbound copy is skipped (R188): the event, and on to step 11. -/
def State.skipCopy (s : State) (e : Event) : State := (s.raise e).goto .finish

/-- The inbound copy (R188): the first m advertised bytes enter IN, the rest are lost. -/
def inboundCopy (cnt : Nat) (bytes : List Byte) (s : State) : Outcome :=
  match s.inF.push (bytes.take (inboundCount s.cfg cnt s.inF.free)) with
  | none => .fault .fifoOverflow
  | some f =>
    .next ({ (s.raiseIf (decide (inboundCount s.cfg cnt s.inF.free < cnt))
      (.inboundTruncated (cnt - inboundCount s.cfg cnt s.inF.free))) with inF := f }.goto .finish)

/-- The inspection of a frame that is no DATARSP: ignored whole (R117, R121). -/
def State.ignoreFrame (s : State) : State :=
  if s.checksumRejects then s.skipCopy .checksumMismatch else s.skipCopy .pageMismatch

/-- DATARSP at `T_INSPECT` (R188, R250). -/
def execDatarsp (r : RspFrame) (s : State) : Outcome :=
  whenDue (.datarsp r) s fun s =>
    if s.checksumRejects then .next (s.skipCopy .checksumMismatch)
    else inboundCopy (parseRsp s.cfg (rspToFrame s.cfg r)).cnt (parseRsp s.cfg (rspToFrame s.cfg r)).bytes s

/-- A received read-kind frame that is no DATARSP, at `T_INSPECT` (R118, R121). The block never
sends one (R122), so none of the transmit direction is ever due. -/
def execRd (f : ClassFrame) (s : State) : Outcome :=
  whenDue (.rd f) s fun s => .next s.ignoreFrame

/-- A received write-kind frame that is no DATARSP, at `T_INSPECT` (R118, R121). The block never
sends one (R122), so none of the transmit direction is ever due. -/
def execWr (f : ClassFrame) (s : State) : Outcome :=
  whenDue (.wr f) s fun s => .next s.ignoreFrame

/-- A received bulk-transfer-kind frame that is no DATARSP, at `T_INSPECT` (R120, R121). The block never
sends one (R122), so none of the transmit direction is ever due. -/
def execBulk (f : ClassFrame) (s : State) : Outcome :=
  whenDue (.bulk f) s fun s => .next s.ignoreFrame

/-- A received frame of the reserved kind that is no DATARSP, at `T_INSPECT` (R119, R121). The block never
sends one (R122), so none of the transmit direction is ever due. -/
def execK3 (f : ClassFrame) (s : State) : Outcome :=
  whenDue (.k3 f) s fun s => .next s.ignoreFrame

end Sys2Proof.Machine
end

