-- ==== Sys2Proof/Machine/ModeGate.lean ====
section
/-! DEFINITION. The mode gate: BEGIN in its branches and its completion step (R141 to R147), WRITE (R148), READ
(R149), ISEXT (R150), TRYACQ (R151), REL (R152), the reserved select (R126), delegation (R140, R153). -/

namespace Sys2Proof.Machine

/-- BEGIN, pass-through branch (R142). -/
def State.beginPassThrough (s : State) (b : Word32) (rx tx : Nat) : State :=
  ({ s with mode := .passthrough }.delegate (.begin b rx tx)).returns .none

/-- The capacity BEGIN gives a buffer: clamped, or 0 where the allocation fails (R143). -/
def allocated (ok : Bool) (requested : Nat) : Nat := if ok then clamp requested else 0

/-- Both buffers allocated anew and empty (R143). -/
def State.allocate (s : State) (rx tx : Nat) : State :=
  { s.drewAllocs with
    inF := { bytes := [], cap := allocated s.allocIn rx }
    outF := { bytes := [], cap := allocated s.allocOut tx } }

/-- The events of the posting step, in the order of R143 (E2 before E3, R281). -/
def State.raiseAllocation (s : State) (rx tx : Nat) : State :=
  ((s.raiseIf (clampRaises rx) (.capacityClamped .rx)).raiseIf (clampRaises tx) (.capacityClamped .tx)).raiseIf
    (s.inF.cap == 0 || s.outF.cap == 0) .allocationFailed

/-- BEGIN, bridge branch, posting step (R143). -/
def State.beginPost (s : State) (b : Word32) (rx tx : Nat) : State :=
  { ({ ((s.allocate rx tx).raiseAllocation rx tx) with busHandle := true }.postBaud b) with bpc := .wait }

/-- BEGIN, entry (R141), with the delegated and the refused case of R147. -/
def execBegin (b : Word32) (rx tx : Nat) (s : State) : Outcome :=
  whenAppFree s fun s =>
    match s.mode with
    | .uninit =>
      .next (if s.extOk then s.drewExtOk.beginPassThrough b rx tx else s.drewExtOk.beginPost b rx tx)
    | .passthrough => .next ((s.delegate (.begin b rx tx)).returns .none)
    | .bridged => .refused .beginWhileBridged

/-- BEGIN, completion step (R145); enabled when `bpc = B_WAIT` and `PENDING = 0`. -/
def State.beginComplete (s : State) : State :=
  { s with
    mode := if s.outF.cap ≠ 0 ∧ s.inF.cap ≠ 0 then .bridged else s.mode
    bpc := .idle }.returns .none

/-- WRITE on the outbound FIFO: the first k bytes that fit (R148). -/
def writeFifo (d : List Byte) (s : State) : Outcome :=
  match s.outF.push (d.take (min d.length s.outF.free)) with
  | some f => .next ({ s with outF := f }.returns (.accepted (min d.length s.outF.free)))
  | none => .fault .fifoOverflow

/-- WRITE (R148). -/
def execWrite (d : List Byte) (s : State) : Outcome :=
  whenAppFree s fun s =>
    match s.mode with
    | .passthrough => .next ((s.drewUartAccepted.delegate (.write d)).returns (.accepted s.uartAccepted))
    | .uninit => writeFifo d s
    | .bridged => writeFifo d s

/-- READ on the inbound FIFO: at most `len` bytes, oldest first (R149). -/
def readFifo (len : Nat) (s : State) : Outcome :=
  match s.inF.pop (min len s.inF.size) with
  | some (v, f) => .next ({ s with inF := f }.returns (.bytes v))
  | none => .fault .fifoUnderflow

/-- READ (R149). -/
def execRead (len : Nat) (s : State) : Outcome :=
  whenAppFree s fun s =>
    match s.mode with
    | .passthrough => .next ((s.drewUartBytes.delegate (.read len)).returns (.bytes s.uartBytes))
    | .uninit => readFifo len s
    | .bridged => readFifo len s

/-- ISEXT (R150): it reports `MODE = PASSTHROUGH` and changes no state, in PASSTHROUGH mode too (V68). -/
def execIsext (s : State) : Outcome :=
  whenAppFree s fun s => .next (s.returns (.bool (s.mode == .passthrough)))

/-- TRYACQ on the bus lock (R151): `return TryLock()` (R53), whatever `BUS_HANDLE` is (log entry 24). -/
def tryAcquire (s : State) : Outcome :=
  match s.tryLock with
  | (ok, s') => .next (s'.returns (.bool ok))

/-- TRYACQ (R151), delegated whole in PASSTHROUGH mode (R140, log entry 12). -/
def execTryacq (s : State) : Outcome :=
  whenAppFree s fun s =>
    match s.mode with
    | .passthrough => .next ((s.drewUartAcquired.delegate .tryacq).returns (.bool s.uartAcquired))
    | .uninit => tryAcquire s
    | .bridged => tryAcquire s

/-- REL on the bus lock (R152): `Unlock()`, where APP holds the lock through TRYACQ (log entry 13) and no tick is in
progress, whatever `BUS_HANDLE` is (log entry 24); otherwise refused (U5). -/
def release (s : State) : Outcome :=
  if s.lock = .own ∧ s.tpc = .idle then thenDo (unlock s) fun s => .next (s.returns .none)
  else .refused .relWithoutAcquire

/-- REL (R152), delegated whole in PASSTHROUGH mode (R140, log entry 12). -/
def execRel (s : State) : Outcome :=
  whenAppFree s fun s =>
    match s.mode with
    | .passthrough => .next ((s.delegate .rel).returns .none)
    | .uninit => release s
    | .bridged => release s

/-- Operation select 7 names no operation; a model's dispatcher refuses it (R126, U8). -/
def execReserved7 (_s : State) : Outcome := .refused .reservedSelect

end Sys2Proof.Machine
end

