-- ==== Sys2Proof/Machine/TickEngine.lean ====
section
/-! DEFINITION. The tick engine: the entry step of TICK (R170 to R179, R191) and the micro-steps that send and
inspect no frame (R175, R176, R180, R184, R186, R187, R190). The four that do are the frame instructions. -/

namespace Sys2Proof.Machine

/-- Source step 2, arbitration for the handshake (R173). -/
def State.enterHandshake (s : State) : State :=
  match s.tryLock with
  | (true, s') => s'.goto .cfgXfer
  | (false, s') => s'.raise (.busLockUnavailable .handshake)

/-- Source step 5, arbitration for the exchange (R179): BUSY is set, and cleared again where the lock is taken. -/
def State.enterExchange (s : State) : State :=
  match s.setBusy.tryLock with
  | (true, s') => s'.goto .budget
  | (false, s') => s'.clearBusy.raise (.busLockUnavailable .exchange)

/-- The rate gate is closed (R178): less than POLL_US since LAST_TS, modulo 2^32. -/
def State.gateClosed (s : State) : Bool := decide (elapsed s.now s.lastTs < s.cfg.pollUs)

/-- The entry step: the priority chain of R191. -/
def State.tickEntry (s : State) : State :=
  if s.tpc ≠ .idle then s.raise .tickOverlapped
  else if s.mode = .passthrough then s.delegate .tick
  else if s.pending then s.enterHandshake
  else if s.mode ≠ .bridged then s.raise .notInitialized
  else if s.gateClosed then s.raise .rateGated
  else s.enterExchange

/-- TICK (R170): the entry step. -/
def execTick (s : State) : Outcome := .next s.tickEntry

/-- `T_CFG_SETTLE` (R175): `Settle(SETTLE_CFG)` changes no state and keeps its place in the order (R86). -/
def State.cfgSettle (s : State) : State := s.goto .cfgDone

/-- `T_CFG_DONE` (R176): release the lock, clear PENDING, the tick returns. -/
def cfgDone (s : State) : Outcome :=
  thenDo (unlock s) fun s => .next (s.clearPending.goto .idle)

/-- `T_BUDGET` (R180). -/
def State.takeBudget (s : State) : State :=
  { s with ntx := budget s.cfg s.outF.size s.baud }.goto .wrXfer

/-- `T_WR_SETTLE` (R184). -/
def State.wrSettle (s : State) : State := s.goto .rdXfer

/-- `T_RD_SETTLE` (R186). -/
def State.rdSettle (s : State) : State := s.goto .unlock

/-- `T_UNLOCK` (R187). -/
def unlockStep (s : State) : Outcome :=
  thenDo (unlock s) fun s => .next (s.goto .inspect)

/-- `T_FINISH` (R190): BUSY cleared, LAST_TS a fresh clock read, the tick returns. -/
def State.finish (s : State) : State := { s.clearBusy with lastTs := s.now }.goto .idle

/-- The micro-step that `tpc` names, where it is no frame instruction; nothing where no tick is in progress. -/
def microStep (s : State) : Outcome :=
  match s.tpc with
  | .cfgSettle => .next s.cfgSettle
  | .cfgDone => cfgDone s
  | .budget => .next s.takeBudget
  | .wrSettle => .next s.wrSettle
  | .rdSettle => .next s.rdSettle
  | .unlock => unlockStep s
  | .finish => .next s.finish
  | .idle | .cfgXfer | .wrXfer | .rdXfer | .inspect => .next s

end Sys2Proof.Machine
end

