-- ==== Sys2Proof/Machine/Dispatch.lean ====
section
/-! DEFINITION. The dispatcher: one arm per constructor of `Instr`, each one call of the instruction's meaning. -/

namespace Sys2Proof.Machine

def exec (i : Instr) (s : State) : Host.Outcome State Fault Refusal :=
  match i with
  | .cfgbaud b => Sys2Proof.Machine.execCfgbaud b s
  | .datawr d => Sys2Proof.Machine.execDatawr d s
  | .datard => Sys2Proof.Machine.execDatard s
  | .datarsp r => Sys2Proof.Machine.execDatarsp r s
  | .rd f => Sys2Proof.Machine.execRd f s
  | .wr f => Sys2Proof.Machine.execWr f s
  | .bulk f => Sys2Proof.Machine.execBulk f s
  | .k3 f => Sys2Proof.Machine.execK3 f s
  | .begin b rx tx => Sys2Proof.Machine.execBegin b rx tx s
  | .write d => Sys2Proof.Machine.execWrite d s
  | .read n => Sys2Proof.Machine.execRead n s
  | .isext => Sys2Proof.Machine.execIsext s
  | .tryacq => Sys2Proof.Machine.execTryacq s
  | .rel => Sys2Proof.Machine.execRel s
  | .tick => Sys2Proof.Machine.execTick s
  | .reserved7 => Sys2Proof.Machine.execReserved7 s

end Sys2Proof.Machine
end

