-- ==== Sys2Proof/Machine/Agents.lean ====
section
/-! DEFINITION. What each agent does with its turn (R11, R12): TICKER's micro-step (R170), APP's completion,
re-poll or next operation (R145, R154), and what happens when no turn is scheduled. A turn given to an agent none
of whose steps is enabled passes (log entry 14). -/

namespace Sys2Proof.Machine

/-- TICKER performs the micro-step that `tpc` names: a frame instruction, or one of the others. -/
def tickerTurn (s : State) : Outcome :=
  match s.frameDue with
  | some i => exec i s
  | none => microStep s

/-- APP issues its next operation: the bytes of the call are fetched, decoded and run. TICK is no operation of APP
(R11, R125), so no APP turn writes `tpc` (R36). The spec does not say what a call of select 6 by APP does; that it is
refused is the model's choice (log entry 23). -/
def appIssue (s : State) : Outcome :=
  match s.app with
  | [] => .next s
  | call :: rest =>
    match decodeCall call with
    | .ok i => if i = .tick then .refused .tickByApp else exec i { s with app := rest }
    | .error e => .refused (.undecodable e)

/-- APP's turn: inside BEGIN it completes when PENDING is 0 and re-polls otherwise (R145); outside, it issues. -/
def appTurn (s : State) : Outcome :=
  match s.bpc with
  | .wait => .next (if s.pending then s else s.beginComplete)
  | .idle => appIssue s

/-- No turn is scheduled: a tick in progress carries on, otherwise APP goes on (log entry 14). -/
def unscheduledTurn (s : State) : Outcome :=
  if s.tpc = .idle then appTurn s else tickerTurn s

/-- One turn. -/
def takeTurn (t : Turn) (s : State) : Outcome :=
  match t with
  | .app => appTurn s
  | .strobe => exec .tick s
  | .micro => tickerTurn s
  | .advance us => .next (s.advance us)
  | .busTaken => .next s.busTaken
  | .busReleased => .next s.busReleased

/-- The step of a machine whose configuration is in range: the next scheduled turn. -/
def scheduledStep (s : State) : Outcome :=
  match s.sched with
  | [] => unscheduledTurn s
  | t :: rest => takeTurn t { s with sched := rest }

/-- The state in which the sequencer sends this frame next: its micro-step, with the lock the transfer needs and
the operands where the sequencer takes them from (R174, R183, R185). -/
def State.withTxDue (s : State) (i : Instr) : State :=
  match i with
  | .cfgbaud b => { s with tpc := .cfgXfer, lock := .own, baud := b }
  | .datawr d => { s with tpc := .wrXfer, lock := .own, ntx := d.length, outF := { s.outF with bytes := d } }
  | .datard => { s with tpc := .rdXfer, lock := .own }
  | .datarsp _ | .rd _ | .wr _ | .bulk _ | .k3 _ => s
  | .begin _ _ _ | .write _ | .read _ | .isext | .tryacq | .rel | .tick | .reserved7 => s

/-- A packet placed where the next step fetches it: an APP call at the head of APP's operations, the TICK call as
a strobe, a transmitted frame as the sequencer's next frame, a received frame in RXF (log entry 11). -/
def State.withPacket (s : State) (p : Packet) : State :=
  match p with
  | .call bs =>
    if decodeCall bs = .ok .tick then { s with sched := .strobe :: s.sched }
    else { s with app := bs :: s.app, sched := .app :: s.sched }
  | .tx bs =>
    match decode s.cfg (.tx bs) with
    | .ok i => { s.withTxDue i with sched := .micro :: s.sched }
    | .error _ => s
  | .rx bs => { s with tpc := .inspect, rxf := decodeFrame s.cfg.n bs, sched := .micro :: s.sched }

end Sys2Proof.Machine
end

