-- ==== Sys2Proof/Machine/Step.lean ====
section
/-! DEFINITION. One step of the machine, and the state in which a given table word is the next instruction. -/

namespace Sys2Proof.Machine

/-- One step: a configuration outside its ranges is refused (R10, U6), otherwise the next turn is taken. -/
def step (s : State) : Host.Outcome State Fault Refusal :=
  if s.cfg.wf then scheduledStep s else .refused .cfgOutOfRange

/-- The state with the opcode table's word placed where the next step fetches its instruction. -/
def State.withFetchWord (s : State) (nbits w : Nat) : State := s.withPacket (tablePacket s.cfg nbits w)

end Sys2Proof.Machine
end

