-- ==== Sys2Proof/Safety.lean ====
section
/-! DEFINITION. What statements about the machine are said in terms of: the invariant of R59, made inductive; which
outcomes are safe; the block's own state; a tick run to its return; and the frames the block may send. -/

namespace Sys2Proof.Machine

/-! ### The invariant -/

/-- R59 (a): while the tick is at a step that holds the lock, `LOCK = OWN`. (In every other state `LOCK = OWN`
is APP's hold through TRYACQ, `State.appHoldsLock`.) -/
abbrev State.lockHeld (s : State) : Prop := s.tpc.holdsLock = true → s.lock = .own

/-- R59 (b): BUSY is 1 exactly during `T_BUDGET` to `T_FINISH`. -/
abbrev State.busyInExchange (s : State) : Prop := s.busy = s.tpc.inExchange

/-- R49: the bus handle is held wherever the tick can reach the bus or its lock, and while it holds the lock. (APP's
TRYACQ and REL do not ask for it, log entry 24.) -/
abbrev State.handleHeld (s : State) : Prop :=
  (s.bpc = .wait → s.busHandle = true) ∧ (s.mode = .bridged → s.busHandle = true) ∧
  (s.tpc.holdsLock = true → s.busHandle = true)

/-- R59 (d): in BRIDGED mode both buffers are allocated. -/
abbrev State.buffersAllocated (s : State) : Prop := s.mode = .bridged → 0 < s.outF.cap ∧ 0 < s.inF.cap

/-- R59 (e): neither FIFO holds more than its capacity. -/
abbrev State.fifosFit (s : State) : Prop := s.outF.wf = true ∧ s.inF.wf = true

/-- R59 (f), in the form that every step keeps: APP waits inside BEGIN only in UNINIT mode. -/
abbrev State.waitsUninit (s : State) : Prop := s.bpc = .wait → s.mode = .uninit

/-- R59 (g): the handshake is served only while the request is pending; and R60: a pending request has BEGIN
waiting for it. -/
abbrev State.handshakePending (s : State) : Prop :=
  (s.tpc.inHandshake = true → s.pending = true) ∧ (s.pending = true → s.bpc = .wait)

/-- An exchange runs only in BRIDGED mode (R177, R285). -/
abbrev State.exchangeBridged (s : State) : Prop := s.tpc.inExchange = true → s.mode = .bridged

/-- R196, R193: the budget is still available and fits a frame when the data-write frame is built. -/
abbrev State.budgetAvailable (s : State) : Prop :=
  s.tpc = .wrXfer → s.ntx ≤ s.outF.size ∧ s.ntx ≤ s.cfg.payloadBytes

/-- R149: outside BRIDGED mode the inbound FIFO is empty. -/
abbrev State.inboundEmpty (s : State) : Prop := s.mode ≠ .bridged → s.inF.bytes = []

/-- R31, R32: both frame register files have N + 4 words. -/
abbrev State.frameFiles (s : State) : Prop :=
  s.txf.payload.length = s.cfg.n ∧ s.rxf.payload.length = s.cfg.n

/-- The invariant: every reachable state has it (R59), and every step keeps it. -/
abbrev State.Inv (s : State) : Prop :=
  s.cfg.wf = true ∧ s.lockHeld ∧ s.busyInExchange ∧ s.handleHeld ∧ s.buffersAllocated ∧ s.fifosFit ∧
  s.waitsUninit ∧ s.handshakePending ∧ s.exchangeBridged ∧ s.budgetAvailable ∧ s.inboundEmpty ∧ s.frameFiles

/-! ### Outcomes -/

/-- Apply a function to the next state of an outcome, if it has one. -/
def mapNext (g : State → State) (o : Outcome) : Outcome := thenDo o fun s => .next (g s)

/-- The next state of an outcome, if it has one. -/
def nextOf : Outcome → Option State
  | .next s => some s
  | .fault _ => none
  | .refused _ => none

/-- The outcome is no fault: no precondition of the spec was violated. -/
def noFault : Outcome → Bool
  | .next _ => true
  | .fault _ => false
  | .refused _ => true

/-! ### The block's own state -/

/-- The block's own state (R30): everything but ENV's state, the agents' scripts and the history. -/
structure Block where
  txf : Frame
  rxf : Frame
  tpc : TickStep
  bpc : BeginStep
  pending : Bool
  busy : Bool
  mode : Mode
  baud : Word32
  lastTs : Word32
  busHandle : Bool
  ntx : Nat
  outF : Fifo
  inF : Fifo
deriving DecidableEq, Repr

/-- The block's own state, of a machine state. -/
def State.block (s : State) : Block where
  txf := s.txf
  rxf := s.rxf
  tpc := s.tpc
  bpc := s.bpc
  pending := s.pending
  busy := s.busy
  mode := s.mode
  baud := s.baud
  lastTs := s.lastTs
  busHandle := s.busHandle
  ntx := s.ntx
  outF := s.outF
  inF := s.inF

/-! ### A tick run without interleaving (R128) -/

/-- At most `k` micro-steps of TICKER, one after another, stopping when the tick has returned. -/
def tickRun : Nat → State → Outcome
  | 0, s => .next s
  | k + 1, s => if s.tpc = .idle then .next s else thenDo (tickerTurn s) (tickRun k)

/-- The whole tick of R128: the entry step and every micro-step, without interleaving. -/
def wholeTick (s : State) : Outcome := thenDo (exec .tick s) (tickRun 8)

/-! ### The frames on the bus -/

/-- A frame the block may send (R122): a CFGBAUD of some rate, a DATAWR of at most 2 N bytes, or the DATARD. -/
def sendable (c : Cfg) (f : Frame) : Prop :=
  (∃ b, f = buildCfgBaud c b) ∨ (∃ d, d.length ≤ c.payloadBytes ∧ f = buildDataWr c d) ∨ f = buildDataRd c

/-- What was added to the history between two states. -/
def newObs (s s' : State) : List Obs := s'.trace.drop s.trace.length

end Sys2Proof.Machine
end

