-- ==== Sys2Proof/Certificates/Slice0/Obligations.lean ====
section
/-! DEFINITION. The statements for the provers. Each docstring names the rule or the sections of spec/ it rests on,
and where a clause is the spec's own decision or the model's choice it says so. -/

open Sys2Proof Sys2Proof.Machine

/-! ### Encoding, checksum, operands -/

/-- Decoding inverts encoding for every well-formed instruction of every configuration in range (sections 30 and
43; the operand bytes of a call are the model's choice, log entry 9). -/
def Obligations.DecodeEncodeInverse : Prop :=
  ∀ (c : Cfg) (i : Instr), c.wf = true → i.wf c = true → decode c (encode c i) = .ok i

/-- DECODE and ENCODE are inverse to each other on frames of N payload words and on FRAME_BYTES bytes (R242, which
the spec marks as derived). -/
def Obligations.FrameCodecIsBijective : Prop :=
  (∀ (n : Nat) (f : Frame), f.payload.length = n → decodeFrame n (wireBytes f) = f) ∧
  (∀ (n : Nat) (b : List Byte), b.length = 2 * (n + 4) → wireBytes (decodeFrame n b) = b)

/-- R240: word i of a frame is wire bytes 2i (its low byte) and 2i + 1 (its high byte), and the length depends on
nothing but N; with the rule's example. -/
def Obligations.EncodeIsLowByteFirst : Prop :=
  (∀ (f : Frame) (i : Nat), i < f.payload.length + 4 →
    (wireBytes f)[2 * i]? = some ((frameWord f i).extractLsb' 0 8) ∧
    (wireBytes f)[2 * i + 1]? = some ((frameWord f i).extractLsb' 8 8)) ∧
  (∀ f : Frame, (wireBytes f).length = 2 * (f.payload.length + 4)) ∧
  (∀ f : Frame, frameWords f = [f.cc, f.page, f.offset] ++ f.payload ++ [f.cksum]) ∧
  wireBytes { cc := 0x4002, page := 0x0001, offset := 0x0000, payload := [0xE100, 0x0000], cksum := 0x38DE } =
    [0x02, 0x40, 0x01, 0x00, 0x00, 0x00, 0x00, 0xE1, 0x00, 0x00, 0xDE, 0x38]

/-- R241: word i of the decoded frame is byte 2i plus byte 2i + 1 shifted left by 8, for any FRAME_BYTES bytes;
with the rule's example, whatever the checksum bytes are. -/
def Obligations.DecodeReadsLowByteFirst : Prop :=
  (∀ (n : Nat) (b : List Byte) (i : Nat), b.length = 2 * (n + 4) → i < n + 4 →
    frameWord (decodeFrame n b) i =
      (b.getD (2 * i) 0).setWidth 16 + ((b.getD (2 * i + 1) 0).setWidth 16 <<< 8)) ∧
  (∀ (n : Nat) (b : List Byte), b.length = 2 * (n + 4) → (decodeFrame n b).payload.length = n) ∧
  (∀ x y : Byte, decodeFrame 2 [0x00, 0x00, 0x02, 0x00, 0x03, 0x00, 0x4F, 0x4B, 0x0A, 0x00, x, y] =
    { cc := 0x0000, page := 0x0002, offset := 0x0003, payload := [0x4B4F, 0x000A], cksum := y ++ x })

/-- The checksum field is not read by the checksum, and what is fed is the FRAME_BYTES wire bytes with that field 0
(section 42.1; that its two zero bytes are fed is the spec's decision D27). -/
def Obligations.ChecksumIgnoresItsField : Prop :=
  ∀ (c : Cfg) (f : Frame) (w : Word),
    cksum c { f with cksum := w } = cksum c f ∧
    ∃ input : List Byte,
      cksum c f = runCk c.ck input ∧
      input = ([f.cc, f.page, f.offset] ++ f.payload ++ [0]).flatMap
        (fun x : Word => [x.extractLsb' 0 8, x.extractLsb' 8 8]) ∧
      input.length = 2 * (f.payload.length + 4)

/-- Seal writes the checksum word and nothing else, is idempotent, and makes Verify true; Verify is true of exactly the
frames whose checksum word is their checksum; each of the three constructors ends with Seal (section 42.3). -/
def Obligations.SealedFramesVerify : Prop :=
  ∀ (c : Cfg),
    (∀ f : Frame, sealFrame c f = { f with cksum := cksum c f } ∧ sealFrame c (sealFrame c f) = sealFrame c f ∧
      verify c (sealFrame c f) = true) ∧
    (∀ f : Frame, verify c f = true ↔ f.cksum = cksum c f) ∧
    (∀ b, sealFrame c (buildCfgBaud c b) = buildCfgBaud c b) ∧
    (∀ d, sealFrame c (buildDataWr c d) = buildDataWr c d) ∧
    sealFrame c (buildDataRd c) = buildDataRd c

/-- Packing places byte k in the low half of payload word k / 2 for even k and in its high half for odd k, and loses no
byte: UnpackBytes of PackBytes gives the bytes back, and every payload byte beyond them is 0 (sections 20.1 and 43.2, the
spec's decision D19; R75 for an odd count). -/
def Obligations.PackUnpackInverse : Prop :=
  ∀ (n : Nat) (d : List Byte), d.length ≤ 2 * n →
    (packBytes n d).length = n ∧
    (∀ (k : Nat) (b : Byte), d[k]? = some b → ∃ w : Word, (packBytes n d)[k / 2]? = some w ∧
      (k % 2 = 0 → w.extractLsb' 0 8 = b) ∧ (k % 2 = 1 → w.extractLsb' 8 8 = b)) ∧
    unpackBytes (packBytes n d) (2 * n) = d ++ List.replicate (2 * n - d.length) 0 ∧
    unpackBytes (packBytes n d) d.length = d

/-- The three frames the block sends: their header words, and their payload, which is the two baud words and zeros, the
PackBytes of the stream bytes (their places in it are PackUnpackInverse's), or zeros (sections 30.4 and 43.3; the counts,
offsets and kind codes are the spec's decisions D5, D20, D23 to D25). -/
def Obligations.ConstructorsLayOutFrames : Prop :=
  ∀ (c : Cfg), c.wf = true →
    (∀ b : Word32,
      (buildCfgBaud c b).cc = c.kWrite ++ (2 : BitVec 14) ∧ (buildCfgBaud c b).page = c.pageCfg ∧
      (buildCfgBaud c b).offset = 0 ∧
      (buildCfgBaud c b).payload = b.extractLsb' 0 16 :: b.extractLsb' 16 16 :: List.replicate (c.n - 2) 0) ∧
    (∀ d : List Byte, d.length ≤ 2 * c.n →
      (buildDataWr c d).cc = c.kWrite ++ BitVec.ofNat 14 c.n ∧
      ((buildDataWr c d).cc.extractLsb' 0 14).toNat = c.n ∧ (buildDataWr c d).page = c.pageData ∧
      (buildDataWr c d).offset.toNat = d.length ∧ (buildDataWr c d).payload = packBytes c.n d) ∧
    ((buildDataRd c).cc = c.kRead ++ (0 : BitVec 14) ∧ (buildDataRd c).page = c.pageData ∧
      (buildDataRd c).offset = 0 ∧ (buildDataRd c).payload = List.replicate c.n 0)

/-- R144: a requested capacity below 1024 is raised to 2048, any other is kept; there is no upper limit. -/
def Obligations.ClampRaisesBelow1024 : Prop :=
  (∀ c : Nat, (c < 1024 → clamp c = 2048) ∧ (1024 ≤ c → clamp c = c)) ∧
  clamp 0 = 2048 ∧ clamp 1023 = 2048 ∧ clamp 1024 = 1024 ∧ clamp 2047 = 2047 ∧ clamp 2048 = 2048 ∧
  clamp 65536 = 65536

/-- R181: the three truncating divisions in their order, with the source's worked example. -/
def Obligations.PacingCapTruncatesInOrder : Prop :=
  (∀ (c : Cfg) (b : Word32), c.wf = true →
    1 ≤ 1000000 / c.pollUs ∧ pacingCap c b = (b.toNat / 10) / (1000000 / c.pollUs)) ∧
  (∀ c : Cfg, c.pollUs = 10000 → pacingCap c 57600 = 57)

/-- When the pacing cap is 0, and that it never exceeds what the line carries where POLL_US divides a second
(section 41.4 laws of the pacing cap, which the spec marks as derived). -/
def Obligations.PacingCapBounds : Prop :=
  ∀ (c : Cfg) (b : Word32), c.wf = true →
    pacingCap c b < 2 ^ 32 ∧
    (pacingCap c b = 0 ↔ b.toNat / 10 < 1000000 / c.pollUs) ∧
    (1000000 % c.pollUs = 0 → pacingCap c b * 10000000 ≤ b.toNat * c.pollUs)

/-- Timestamp arithmetic is modulo 2^32, so it is the true elapsed time across a wrap of the clock while less than
2^32 microseconds pass (section 41.5, the spec's decision D9). -/
def Obligations.ElapsedTimeIsModular : Prop :=
  ∀ t0 t1 : Nat, t0 ≤ t1 → t1 - t0 < 2 ^ 32 →
    elapsed (BitVec.ofNat 32 t1) (BitVec.ofNat 32 t0) = t1 - t0

/-- Frames written out from the spec's encodings decode to what they stand for: the CFGBAUD frame of 57600 baud and the
DATAWR frame of "Hi!" (V10, V35), a response (V51), and frames of the reserved kind on another page in either direction.
So do four calls, whose bytes are the model's choice (log entry 9). -/
def Obligations.WrittenOutWordsDecode : Prop :=
  (∀ c : Cfg, c = { Cfg.reference with n := 4 } →
    decode c (.tx [0x02, 0x40, 0x01, 0x00, 0x00, 0x00, 0x00, 0xE1, 0x00, 0x00, 0x00, 0x00, 0x00, 0x00, 0xBF, 0xD7]) =
      .ok (.cfgbaud 57600) ∧
    decode c (.tx [0x04, 0x40, 0x02, 0x00, 0x03, 0x00, 0x48, 0x69, 0x21, 0x00, 0x00, 0x00, 0x00, 0x00, 0x9F, 0x0D]) =
      .ok (.datawr [0x48, 0x69, 0x21]) ∧
    decode c (.rx [0x00, 0x00, 0x02, 0x00, 0x03, 0x00, 0x4F, 0x4B, 0x0A, 0x00, 0x00, 0x00, 0x00, 0x00, 0xE2, 0x77]) =
      .ok (.datarsp { cc := 0, cnt := 3, payload := [0x4B4F, 0x000A, 0, 0], cksum := 0x77E2 }) ∧
    decode c (.rx [0x05, 0xC0, 0x03, 0x00, 0x00, 0x00, 0x00, 0x00, 0x00, 0x00, 0x00, 0x00, 0x00, 0x00, 0x00, 0x00]) =
      .ok (.k3 { dir := .rx, count := 5, page := 3, offset := 0, payload := [0, 0, 0, 0], cksum := 0 }) ∧
    decode c (.tx [0x05, 0xC0, 0x03, 0x00, 0x00, 0x00, 0x00, 0x00, 0x00, 0x00, 0x00, 0x00, 0x00, 0x00, 0x00, 0x00]) =
      .ok (.k3 { dir := .tx, count := 5, page := 3, offset := 0, payload := [0, 0, 0, 0], cksum := 0 })) ∧
  decodeCall [0x01, 0x48, 0x69] = .ok (.write [0x48, 0x69]) ∧ decodeCall [0x03] = .ok .isext ∧
  decodeCall [0x06] = .ok .tick ∧ decodeCall [0x08] = .error .highSelectBits

/-! ### The mode gate -/

/-- R142: BEGIN where the physical device opens. MODE becomes PASSTHROUGH, the call is delegated and returns, and
no other state of the block changes. -/
def Obligations.BeginPassThroughBranch : Prop :=
  ∀ (s : State) (b : Word32) (rx tx : Nat), s.bpc = .idle → s.mode = .uninit → s.extOk = true →
    exec (.begin b rx tx) s = .next { s.drewExtOk with
      mode := .passthrough
      trace := s.trace ++ [.delegated (.begin b rx tx), .returned .none] }

/-- R143: BEGIN's posting step. Both buffers are allocated anew, the events raised, the handle acquired, the baud
request posted, and APP waits; MODE, the lock and everything else stay as they were. -/
def Obligations.BeginPostsBaudRequest : Prop :=
  ∀ (s : State) (b : Word32) (rx tx : Nat), s.bpc = .idle → s.mode = .uninit → s.extOk = false →
    ∃ capIn capOut : Nat,
      capIn = (if s.drewExtOk.allocIn then clamp rx else 0) ∧
      capOut = (if s.drewExtOk.allocOut then clamp tx else 0) ∧
      exec (.begin b rx tx) s = .next { s.drewExtOk.drewAllocs with
        inF := { bytes := [], cap := capIn }
        outF := { bytes := [], cap := capOut }
        busHandle := true
        baud := b
        pending := true
        bpc := .wait
        trace := s.trace ++ (if rx < 1024 then [.event (.capacityClamped .rx)] else []) ++
          (if tx < 1024 then [.event (.capacityClamped .tx)] else []) ++
          (if capIn = 0 ∨ capOut = 0 then [.event .allocationFailed] else []) }

/-- BEGIN when MODE is not UNINIT: delegated in PASSTHROUGH with no state of the block changed, refused in BRIDGED
(section 40, decision D35, entry U4). -/
def Obligations.BeginOutsideUninit : Prop :=
  ∀ (s : State) (b : Word32) (rx tx : Nat), s.bpc = .idle →
    (s.mode = .passthrough → exec (.begin b rx tx) s =
      .next { s with trace := s.trace ++ [.delegated (.begin b rx tx), .returned .none] }) ∧
    (s.mode = .bridged → exec (.begin b rx tx) s = .refused .beginWhileBridged)

/-- R145: inside BEGIN, APP's turn changes nothing while PENDING is 1, however often it re-polls, and completes BEGIN
when PENDING is 0: MODE becomes BRIDGED exactly if both capacities are nonzero. Only `T_CFG_DONE` clears PENDING, and
nothing else ends the wait. -/
def Obligations.BeginWaitsThenCompletes : Prop :=
  (∀ (s : State) (ts : List Turn), s.cfg.wf = true → s.sched = .app :: ts → s.bpc = .wait →
    (s.pending = true → step s = .next { s with sched := ts }) ∧
    (s.pending = false → s.outF.cap ≠ 0 ∧ s.inF.cap ≠ 0 → step s = .next { s with
      sched := ts, mode := .bridged, bpc := .idle, trace := s.trace ++ [.returned .none] }) ∧
    (s.pending = false → s.outF.cap = 0 ∨ s.inF.cap = 0 → step s = .next { s with
      sched := ts, bpc := .idle, trace := s.trace ++ [.returned .none] })) ∧
  (∀ s t : State, s.bpc = .wait → s.pending = true → step s = .next t →
    t.bpc = .wait ∧ (t.pending = false → s.tpc = .cfgDone ∧ t.tpc = .idle))

/-- WRITE outside pass-through: the first k bytes enter OUT after those it holds, k the smaller of their number and
the free space, and k is returned; nothing else changes (section 40, that they are the first k is D34). -/
def Obligations.WriteAcceptsWhatFits : Prop :=
  ∀ (s : State) (d : List Byte), s.bpc = .idle → s.mode ≠ .passthrough →
    exec (.write d) s = .next { s with
      outF := { s.outF with
        bytes := s.outF.bytes ++ d.take (min d.length (s.outF.cap - s.outF.bytes.length)) }
      trace := s.trace ++ [.returned (.accepted (min d.length (s.outF.cap - s.outF.bytes.length)))] }

/-- R149: outside pass-through the k oldest bytes of IN leave and are returned oldest first, k the smaller of the
maximum length and the number held, and nothing else changes; in PASSTHROUGH mode READ is delegated; in UNINIT mode IN
is empty and READ returns no byte. -/
def Obligations.ReadReturnsOldestBytes : Prop :=
  ∀ (s : State) (len : Nat), s.bpc = .idle →
    (s.mode ≠ .passthrough → exec (.read len) s = .next { s with
      inF := { s.inF with bytes := s.inF.bytes.drop (min len s.inF.bytes.length) }
      trace := s.trace ++ [.returned (.bytes (s.inF.bytes.take (min len s.inF.bytes.length)))] }) ∧
    (s.mode = .passthrough → exec (.read len) s = .next { s.drewUartBytes with
      trace := s.trace ++ [.delegated (.read len), .returned (.bytes s.uartBytes)] }) ∧
    (s.mode = .uninit → s.Inv → exec (.read len) s = .next { s with
      trace := s.trace ++ [.returned (.bytes [])] })

/-- R153: a WRITE or READ in PASSTHROUGH mode is delegated; its result is a draw, no state of the block changes,
no frame is built or sent, and the lock is not touched. -/
def Obligations.PassThroughDelegatesWriteAndRead : Prop :=
  ∀ (s : State), s.bpc = .idle → s.mode = .passthrough →
    (∀ d : List Byte, exec (.write d) s = .next { s.drewUartAccepted with
      trace := s.trace ++ [.delegated (.write d), .returned (.accepted s.uartAccepted)] }) ∧
    (∀ len : Nat, exec (.read len) s = .next { s.drewUartBytes with
      trace := s.trace ++ [.delegated (.read len), .returned (.bytes s.uartBytes)] }) ∧
    s.drewUartAccepted.block = s.block ∧ s.drewUartBytes.block = s.block

/-- R150: ISEXT returns whether MODE is PASSTHROUGH and changes no state; after reset it returns false. -/
def Obligations.IsextReportsPassThrough : Prop :=
  (∀ s : State, s.bpc = .idle → s.mode = .passthrough →
    exec .isext s = .next { s with trace := s.trace ++ [.returned (.bool true)] }) ∧
  (∀ s : State, s.bpc = .idle → s.mode ≠ .passthrough →
    exec .isext s = .next { s with trace := s.trace ++ [.returned (.bool false)] }) ∧
  exec .isext State.reset = .next { State.reset with trace := [.returned (.bool false)] }

/-- TRYACQ returns TryLock(): true and LOCK = OWN from FREE, false and no change from OTHER or OWN, in particular right
after reset. In PASSTHROUGH mode it is delegated and its result is a draw (section 40, R140, decision D16; that BUS_HANDLE
plays no part and the delegation are the model's reading, log entries 24 and 12). -/
def Obligations.TryacqTakesOnlyAFreeLock : Prop :=
  ∀ s : State, s.bpc = .idle →
    (s.mode ≠ .passthrough → s.lock = .free → exec .tryacq s = .next { s with
      lock := .own, trace := s.trace ++ [.returned (.bool true)] }) ∧
    (s.mode ≠ .passthrough → s.lock ≠ .free →
      exec .tryacq s = .next { s with trace := s.trace ++ [.returned (.bool false)] }) ∧
    (s.mode = .passthrough → exec .tryacq s = .next { s.drewUartAcquired with
      trace := s.trace ++ [.delegated .tryacq, .returned (.bool s.uartAcquired)] })

/-- REL frees the lock APP holds when no tick is in progress, and is refused otherwise. In PASSTHROUGH mode it is
delegated (section 40, R140, entry U5; that APP holds the lock is read off LOCK and `tpc`, log entry 13, that BUS_HANDLE
plays no part and the delegation are the model's reading, log entries 24 and 12). -/
def Obligations.RelReleasesAppsLock : Prop :=
  ∀ s : State, s.bpc = .idle →
    (s.mode ≠ .passthrough → s.lock = .own → s.tpc = .idle → exec .rel s = .next { s with
      lock := .free, trace := s.trace ++ [.returned .none] }) ∧
    (s.mode ≠ .passthrough → s.lock ≠ .own ∨ s.tpc ≠ .idle →
      exec .rel s = .refused .relWithoutAcquire) ∧
    (s.mode = .passthrough → exec .rel s = .next { s with
      trace := s.trace ++ [.delegated .rel, .returned .none] })

/-- While APP is inside BEGIN every APP operation is refused: APP has no other enabled step (section 10.3, decisions
D14 and D32; the refusal's name is the model's, log entry 16). -/
def Obligations.AppIsBlockedInsideBegin : Prop :=
  ∀ (s : State) (i : Instr), s.bpc = .wait →
    (∃ b rx tx, i = .begin b rx tx) ∨ (∃ d, i = .write d) ∨ (∃ n, i = .read n) ∨
      i = .isext ∨ i = .tryacq ∨ i = .rel →
    exec i s = .refused .appBlocked

/-- Operation select 7 names no operation and is refused in every state (section 30.6, decision D29,
entry U8; that its call is the one byte 07 is the model's choice, log entry 9). -/
def Obligations.ReservedSelectIsRefused : Prop :=
  ∀ s : State, decodeCall [0x07] = .ok .reserved7 ∧ exec .reserved7 s = .refused .reservedSelect

/-! ### The tick -/

/-- The entry step of TICK: the priority chain, first row first, with the whole next state of each row; TICK always
completes (section 41.2; row 0 is decision D31, the guard after a failed attempt D33). -/
def Obligations.TickEntryPriorityChain : Prop :=
  ∀ s : State, exec .tick s = .next (
    if s.tpc ≠ .idle then { s with trace := s.trace ++ [.event .tickOverlapped] }
    else if s.mode = .passthrough then { s with trace := s.trace ++ [.delegated .tick] }
    else if s.pending = true then
      (if s.lock = .free then { s with lock := .own, tpc := .cfgXfer }
       else { s with trace := s.trace ++ [.event (.busLockUnavailable .handshake)] })
    else if s.mode ≠ .bridged then { s with trace := s.trace ++ [.event .notInitialized] }
    else if (BitVec.ofNat 32 s.clk - s.lastTs).toNat < s.cfg.pollUs then
      { s with trace := s.trace ++ [.event .rateGated] }
    else if s.lock = .free then { s with lock := .own, busy := true, tpc := .budget }
    else { s with busy := false, trace := s.trace ++ [.event (.busLockUnavailable .exchange)] })

/-- R172 and R177: a TICK in PASSTHROUGH mode is delegated, and a TICK that finds no pending request and MODE not
BRIDGED raises NotInitialized; neither changes anything. -/
def Obligations.TickEarlyReturns : Prop :=
  ∀ s : State, s.tpc = .idle →
    (s.mode = .passthrough → exec .tick s = .next { s with trace := s.trace ++ [.delegated .tick] }) ∧
    (s.mode = .uninit → s.pending = false →
      exec .tick s = .next { s with trace := s.trace ++ [.event .notInitialized] })

/-- R174: at `T_CFG_XFER` the CFGBAUD frame of BAUD is built, sealed and sent, the received frame goes to RXF, and
nothing else changes; with the rule's example. -/
def Obligations.CfgbaudSendsTheBaudFrame : Prop :=
  (∀ (s : State) (b : Word32), s.tpc = .cfgXfer → s.lock = .own → s.baud = b →
    exec (.cfgbaud b) s = .next { s.drewRx with
      txf := buildCfgBaud s.cfg b
      rxf := decodeFrame s.cfg.n s.rxBytes
      tpc := .cfgSettle
      trace := s.trace ++ [.sent (buildCfgBaud s.cfg b)] }) ∧
  buildCfgBaud Cfg.reference 57600 =
    { cc := 0x4002, page := 0x0001, offset := 0, payload := 0xE100 :: List.replicate 31 0, cksum := 0xD254 }

/-- At `T_WR_XFER` the NTX oldest bytes of OUT leave in a DATAWR frame that is sent; OUT keeps the rest, RXF takes
the received frame, nothing else changes (section 41.4). -/
def Obligations.DatawrSendsTheOldestBytes : Prop :=
  ∀ (s : State) (d : List Byte), s.tpc = .wrXfer → s.lock = .own → d = s.outF.bytes.take s.ntx →
    s.ntx ≤ s.outF.bytes.length → s.ntx ≤ 2 * s.cfg.n →
    exec (.datawr d) s = .next { s.drewRx with
      txf := buildDataWr s.cfg d
      rxf := decodeFrame s.cfg.n s.rxBytes
      outF := { s.outF with bytes := s.outF.bytes.drop s.ntx }
      tpc := .wrSettle
      trace := s.trace ++ [.sent (buildDataWr s.cfg d)] }

/-- R185: at `T_RD_XFER` the DATARD frame is sent and the received frame goes to RXF, and nothing else changes; with
the rule's example. -/
def Obligations.DatardSendsTheReadRequest : Prop :=
  (∀ s : State, s.tpc = .rdXfer → s.lock = .own →
    exec .datard s = .next { s.drewRx with
      txf := buildDataRd s.cfg
      rxf := decodeFrame s.cfg.n s.rxBytes
      tpc := .rdSettle
      trace := s.trace ++ [.sent (buildDataRd s.cfg)] }) ∧
  buildDataRd Cfg.reference =
    { cc := 0x0000, page := 0x0002, offset := 0, payload := List.replicate 32 0, cksum := 0xEF42 }

/-- Every draw is ENV's answer where one is given and free beyond it: whether the device opens, the two allocations, the
bytes of a received frame (a given frame that is whole is received as it is, so any FRAME_BYTES bytes can be received),
what the physical UART driver answers to a delegated WRITE, READ and TRYACQ. Having drawn one, the next of its kind is
drawn from the next answer, and nothing else changes (sections 10.7, 20.3 and 40, decision D28; the lists, the counters
and the numbering of the free values are the model's form of a draw, log entries 7, 12 and 20). -/
def Obligations.EveryDrawIsEnvsAnswerOrFree : Prop :=
  ∀ s : State,
    (∀ b, s.draws.extOk[s.drawn.extOk]? = some b → s.extOk = b) ∧
    (s.draws.extOk[s.drawn.extOk]? = none → s.extOk = Config.freeExtOk s.drawn.extOk) ∧
    (∀ b, s.draws.allocIn[s.drawn.alloc]? = some b → s.allocIn = b) ∧
    (s.draws.allocIn[s.drawn.alloc]? = none → s.allocIn = Config.freeAllocIn s.drawn.alloc) ∧
    (∀ b, s.draws.allocOut[s.drawn.alloc]? = some b → s.allocOut = b) ∧
    (s.draws.allocOut[s.drawn.alloc]? = none → s.allocOut = Config.freeAllocOut s.drawn.alloc) ∧
    (∀ b, s.draws.rx[s.drawn.rx]? = some b → b.length = s.cfg.frameBytes → s.rxBytes = b) ∧
    (∀ k, s.draws.rx[s.drawn.rx]? = none → k < s.cfg.frameBytes →
      s.rxBytes[k]? = some (Config.freeRxByte s.drawn.rx k)) ∧
    s.rxBytes.length = s.cfg.frameBytes ∧
    (∀ n, s.draws.uartAccepted[s.drawn.uartAccepted]? = some n → s.uartAccepted = n) ∧
    (s.draws.uartAccepted[s.drawn.uartAccepted]? = none →
      s.uartAccepted = Config.freeUartAccepted s.drawn.uartAccepted) ∧
    (∀ v, s.draws.uartBytes[s.drawn.uartBytes]? = some v → s.uartBytes = v) ∧
    (s.draws.uartBytes[s.drawn.uartBytes]? = none → s.uartBytes = Config.freeUartBytes s.drawn.uartBytes) ∧
    (∀ b, s.draws.uartAcquired[s.drawn.uartAcquired]? = some b → s.uartAcquired = b) ∧
    (s.draws.uartAcquired[s.drawn.uartAcquired]? = none →
      s.uartAcquired = Config.freeUartAcquired s.drawn.uartAcquired) ∧
    s.drewExtOk = { s with drawn := { s.drawn with extOk := s.drawn.extOk + 1 } } ∧
    s.drewAllocs = { s with drawn := { s.drawn with alloc := s.drawn.alloc + 1 } } ∧
    s.drewRx = { s with drawn := { s.drawn with rx := s.drawn.rx + 1 } } ∧
    s.drewUartAccepted = { s with drawn := { s.drawn with uartAccepted := s.drawn.uartAccepted + 1 } } ∧
    s.drewUartBytes = { s with drawn := { s.drawn with uartBytes := s.drawn.uartBytes + 1 } } ∧
    s.drewUartAcquired = { s with drawn := { s.drawn with uartAcquired := s.drawn.uartAcquired + 1 } }

/-- R180: `T_BUDGET` sets NTX to the least of the bytes available, the payload capacity and the pacing cap, and
changes nothing else but `tpc`; with the rule's example. -/
def Obligations.BudgetIsTheLeastOfThree : Prop :=
  (∀ (s : State) (ts : List Turn), s.cfg.wf = true → s.sched = .micro :: ts → s.tpc = .budget →
    ∃ k : Nat, step s = .next { s with sched := ts, ntx := k, tpc := .wrXfer } ∧
      k ≤ s.outF.bytes.length ∧ k ≤ 2 * s.cfg.n ∧ k ≤ pacingCap s.cfg s.baud ∧
      (k = s.outF.bytes.length ∨ k = 2 * s.cfg.n ∨ k = pacingCap s.cfg s.baud)) ∧
  budget Cfg.reference 200 57600 = 57

/-- R175, R184 and R186: a settle step changes no state but `tpc`, so the lock stays held. -/
def Obligations.SettleStepsChangeNothing : Prop :=
  ∀ (s : State) (ts : List Turn), s.cfg.wf = true → s.sched = .micro :: ts →
    (s.tpc = .cfgSettle → step s = .next { s with sched := ts, tpc := .cfgDone }) ∧
    (s.tpc = .wrSettle → step s = .next { s with sched := ts, tpc := .rdXfer }) ∧
    (s.tpc = .rdSettle → step s = .next { s with sched := ts, tpc := .unlock })

/-- R176 and R187: the handshake ends by releasing the lock and clearing PENDING, BAUD, LAST_TS and BUSY untouched;
the exchange releases the lock before the response is inspected. -/
def Obligations.LockIsReleasedAtTheEnd : Prop :=
  ∀ (s : State) (ts : List Turn), s.cfg.wf = true → s.sched = .micro :: ts → s.lock = .own →
    (s.tpc = .cfgDone → step s = .next { s with
      sched := ts, lock := .free, pending := false, tpc := .idle }) ∧
    (s.tpc = .unlock → step s = .next { s with sched := ts, lock := .free, tpc := .inspect })

/-- `T_FINISH` clears BUSY and stores a fresh clock reading modulo 2^32 in LAST_TS, and the tick returns (section
41.4, decision D37). -/
def Obligations.FinishStampsTheClock : Prop :=
  ∀ (s : State) (ts : List Turn), s.cfg.wf = true → s.sched = .micro :: ts → s.tpc = .finish →
    step s = .next { s with
      sched := ts, busy := false, lastTs := BitVec.ofNat 32 s.clk, tpc := .idle }

/-- DATARSP at `T_INSPECT`: the first m payload bytes enter IN in order, m the least of the advertised count, the
free space and 2 N; bytes beyond are lost and reported; nothing else changes (section 41.4). With RX_CHECK and a wrong
checksum the copy is skipped (decision D11). -/
def Obligations.DatarspCopiesInbound : Prop :=
  ∀ (s : State) (r : RspFrame), s.tpc = .inspect → s.rxf = rspToFrame s.cfg r →
    (s.cfg.rxCheck = false ∨ verify s.cfg s.rxf = true →
      ∃ m : Nat, m = min r.cnt.toNat (min (s.inF.cap - s.inF.bytes.length) (2 * s.cfg.n)) ∧
        exec (.datarsp r) s = .next { s with
          inF := { s.inF with bytes := s.inF.bytes ++ unpackBytes r.payload m }
          tpc := .finish
          trace := s.trace ++
            (if m < r.cnt.toNat then [.event (.inboundTruncated (r.cnt.toNat - m))] else []) }) ∧
    (s.cfg.rxCheck = true → verify s.cfg s.rxf = false →
      exec (.datarsp r) s = .next { s with tpc := .finish, trace := s.trace ++ [.event .checksumMismatch] })

/-- A received frame whose page is not PAGE_DATA is ignored whole, whatever its kind: RD, WR, BULK and K3 change only
`tpc`, and raise PageMismatch, or ChecksumMismatch where RX_CHECK finds the checksum wrong first (sections 30.4, 30.5,
41.4). -/
def Obligations.OtherFramesAreIgnoredWhole : Prop :=
  ∀ (s : State) (f : ClassFrame) (kind : BitVec 2) (i : Instr), s.cfg.wf = true → s.tpc = .inspect → f.dir = .rx →
    f.page ≠ s.cfg.pageData → s.rxf = classToFrame kind f →
    (kind = s.cfg.kRead ∧ i = .rd f) ∨ (kind = s.cfg.kWrite ∧ i = .wr f) ∨ (kind = s.cfg.kBulk ∧ i = .bulk f) ∨
      (kind ≠ s.cfg.kRead ∧ kind ≠ s.cfg.kWrite ∧ kind ≠ s.cfg.kBulk ∧ i = .k3 f) →
    exec i s = .next { s with
      tpc := .finish
      trace := s.trace ++
        [.event (if s.cfg.rxCheck = true ∧ verify s.cfg s.rxf = false then .checksumMismatch else .pageMismatch)] }

/-- A frame instruction runs only where the sequencer sends or inspects exactly that frame: any other is refused. What is
due at a transfer step is the one frame the sequencer sends there, at `T_INSPECT` the received frame, elsewhere nothing,
and never a frame of a class row in the transmit direction (section 30.5: the block cannot be made to send another frame;
frames as instructions are the model's form, log entry 15). -/
def Obligations.RawFramesCannotBeInjected : Prop :=
  ∀ (s : State) (i : Instr),
    (∃ b, i = .cfgbaud b) ∨ (∃ d, i = .datawr d) ∨ i = .datard ∨ (∃ r, i = .datarsp r) ∨ (∃ f, i = .rd f) ∨
      (∃ f, i = .wr f) ∨ (∃ f, i = .bulk f) ∨ (∃ f, i = .k3 f) →
    (s.frameDue ≠ some i → exec i s = .refused .frameNotDue) ∧
    (s.frameDue = some i →
      (s.tpc = .cfgXfer ∧ i = .cfgbaud s.baud) ∨ (s.tpc = .wrXfer ∧ i = .datawr (s.outF.bytes.take s.ntx)) ∨
      (s.tpc = .rdXfer ∧ i = .datard) ∨ (s.tpc = .inspect ∧ i = decodeRx s.cfg s.rxf)) ∧
    (∀ f : ClassFrame, f.dir = .tx → i = .rd f ∨ i = .wr f ∨ i = .bulk f ∨ i = .k3 f →
      exec i s = .refused .frameNotDue)

/-- No received frame is illegal: whatever RXF holds, the inspection completes, and without RX_CHECK its commandCode
and its checksum word decide nothing (section 30.5). -/
def Obligations.NoReceivedFrameIsIllegal : Prop :=
  ∀ (s : State) (ts : List Turn), s.cfg.wf = true → s.sched = .micro :: ts → s.tpc = .inspect →
    ∃ t : State, step s = .next t ∧ t.tpc = .finish ∧ t.lock = s.lock ∧ t.outF = s.outF ∧ t.rxf = s.rxf ∧
      (s.cfg.rxCheck = false → ∀ cc ck : Word,
        step { s with rxf := { s.rxf with cc := cc, cksum := ck } } =
          .next { t with rxf := { s.rxf with cc := cc, cksum := ck } })

/-! ### The step -/

/-- A step runs the decoded instruction: APP's next call, fetched and decoded; the TICK strobe; the frame the
sequencer is at. With no turn scheduled, a tick in progress carries on and otherwise APP goes on (log entry 14). TICK is
no call of APP's: StepRefusesByName says what stops it. -/
def Obligations.StepRunsTheDecodedInstruction : Prop :=
  ∀ (s : State) (ts : List Turn) (i : Instr), s.cfg.wf = true →
    (∀ call rest, s.bpc = .idle → s.app = call :: rest → decodeCall call = .ok i → i ≠ .tick →
      (s.sched = .app :: ts → step s = exec i { s with sched := ts, app := rest }) ∧
      (s.sched = [] → s.tpc = .idle → step s = exec i { s with app := rest })) ∧
    (s.sched = .strobe :: ts → step s = exec .tick { s with sched := ts }) ∧
    (s.frameDue = some i →
      (s.sched = .micro :: ts → step s = exec i { s with sched := ts }) ∧
      (s.sched = [] → step s = exec i s))

/-- A configuration out of its ranges is refused whatever is scheduled (section 00.3, entry U6). A call whose bytes decode
to nothing is refused, which is the model's choice as those bytes are (log entries 9 and 16), and so is a TICK call by APP,
since TICK is TICKER's alone (sections 00.4 and 30.6, entry U19; the refusal is the model's choice, log entry 23). -/
def Obligations.StepRefusesByName : Prop :=
  (∀ (s : State) (ts : List Turn) (call : List Byte) (rest : List (List Byte)),
    s.cfg.wf = true → s.sched = .app :: ts → s.bpc = .idle → s.app = call :: rest →
    (∀ e : Reject, decodeCall call = .error e → step s = .refused (.undecodable e)) ∧
    (decodeCall call = .ok .tick → step s = .refused .tickByApp)) ∧
  (∀ s : State, s.cfg.wf = false → step s = .refused .cfgOutOfRange)

/-- ENV's turns: the clock only grows and nothing of the block changes; the lock moves between FREE and OTHER and
never from OWN (section 10.7, decisions D9 and D16). -/
def Obligations.EnvMovesClockAndFreeLockOnly : Prop :=
  ∀ (s : State) (ts : List Turn), s.cfg.wf = true →
    (∀ us, s.sched = .advance us :: ts → step s = .next { s with sched := ts, clk := s.clk + us }) ∧
    (s.sched = .busTaken :: ts →
      step s = .next { s with sched := ts, lock := if s.lock = .free then .other else s.lock }) ∧
    (s.sched = .busReleased :: ts →
      step s = .next { s with sched := ts, lock := if s.lock = .other then .free else s.lock })

/-! ### The whole machine -/

/-- What reset leaves, for every configuration: the values the spec's table gives (section 10.8, decision D17). The
values of BAUD, TXF, RXF, NTX and CLK are the model's choice and are not stated here (log entries 1 to 4). -/
def Obligations.ResetLeavesTheBlockUninitialised : Prop :=
  ∀ c : Cfg, ∃ s : State, s = State.resetWith c ∧ s.cfg = c ∧ s.mode = .uninit ∧ s.pending = false ∧ s.busy = false ∧
    s.lastTs = 0 ∧ s.outF.cap = 0 ∧ s.inF.cap = 0 ∧ s.outF.bytes = [] ∧ s.inF.bytes = [] ∧
    s.busHandle = false ∧ s.tpc = .idle ∧ s.bpc = .idle ∧ s.lock ≠ .own

/-- The invariant holds after reset, under every configuration in range (section 10.8). -/
def Obligations.InvHoldsAtReset : Prop :=
  State.reset.Inv ∧ ∀ c : Cfg, c.wf = true → (State.resetWith c).Inv

/-- Every step keeps the invariant of R59 (which the spec marks as derived): the lock is held at the steps that need
it, BUSY is exact, the FIFOs fit, a handshake has its request pending, an exchange runs in BRIDGED mode only. -/
def Obligations.EveryStepKeepsInv : Prop :=
  ∀ s t : State, s.Inv → step s = .next t → t.Inv

/-- From a state that has the invariant no step faults: every precondition of the spec's primitives is met (section
41.5, which the spec marks as derived). -/
def Obligations.NoStepFaultsUnderInv : Prop :=
  ∀ s : State, s.Inv → noFault (step s) = true

/-- A tick returns after its entry step and at most eight micro-steps (section 41.5, marked as derived). -/
def Obligations.EveryTickReturns : Prop :=
  ∀ s : State, s.Inv → s.tpc = .idle → ∃ t : State, wholeTick s = .next t ∧ t.tpc = .idle ∧ t.Inv

/-- A pending request is consumed by exactly one tick that finds the lock free: one CFGBAUD frame of BAUD is sent,
and afterwards PENDING is 0 and the lock is free; MODE, BAUD, BUSY, LAST_TS and both FIFOs are as before (sections 40 and
41.3). -/
def Obligations.OneTickServesTheBaudRequest : Prop :=
  ∀ s : State, s.Inv → s.tpc = .idle → s.pending = true → s.lock = .free →
    ∃ t : State, wholeTick s = .next t ∧ t.trace = s.trace ++ [.sent (buildCfgBaud s.cfg s.baud)] ∧
      t.pending = false ∧ t.lock = .free ∧ t.tpc = .idle ∧ t.mode = s.mode ∧ t.baud = s.baud ∧ t.busy = s.busy ∧
      t.lastTs = s.lastTs ∧ t.outF = s.outF ∧ t.inF = s.inF ∧ t.bpc = s.bpc

/-- A qualifying tick with the lock free moves exactly the budget out of OUT, oldest first, and sends two frames in
order, the data write and the read request; then the lock is free, BUSY is 0 and LAST_TS is now (sections 41.4, 41.5). -/
def Obligations.ExchangeMovesTheBudget : Prop :=
  ∀ s : State, s.Inv → s.tpc = .idle → s.pending = false → s.mode = .bridged → s.lock = .free →
    s.cfg.pollUs ≤ elapsed s.now s.lastTs →
    ∃ (t : State) (k : Nat) (evs : List Event), wholeTick s = .next t ∧
      k = min s.outF.bytes.length (min (2 * s.cfg.n) (pacingCap s.cfg s.baud)) ∧
      t.outF.bytes = s.outF.bytes.drop k ∧
      t.trace = s.trace ++ [.sent (buildDataWr s.cfg (s.outF.bytes.take k)), .sent (buildDataRd s.cfg)] ++
        evs.map .event ∧
      (∃ m, m ≤ 2 * s.cfg.n ∧ t.inF.bytes.take s.inF.bytes.length = s.inF.bytes ∧
        t.inF.bytes.length = s.inF.bytes.length + m) ∧
      t.lock = .free ∧ t.busy = false ∧ t.lastTs = s.now ∧ t.tpc = .idle ∧ t.pending = false ∧ t.mode = .bridged ∧
      t.baud = s.baud

/-- No step writes the parameters of the step relation: the configuration and ENV's answers (sections 10.5 and 10.8, R50
and R61). -/
def Obligations.NoStepWritesTheParameters : Prop :=
  ∀ s t : State, step s = .next t → t.toParams = s.toParams

/-- MODE leaves UNINIT only: to PASSTHROUGH in a step that delegates a BEGIN whose device opens, or to BRIDGED in the step
that completes a BEGIN with both buffers allocated; no other transition exists (section 60.5). -/
def Obligations.ModeIsSetOnce : Prop :=
  ∀ s t : State, s.Inv → step s = .next t → t.mode ≠ s.mode →
    s.mode = .uninit ∧
    ((t.mode = .passthrough ∧ s.bpc = .idle ∧ s.extOk = true ∧
        ∃ b rx tx, newObs s t = [.delegated (.begin b rx tx), .returned .none]) ∨
     (t.mode = .bridged ∧ s.bpc = .wait ∧ t.bpc = .idle ∧ s.pending = false ∧ 0 < s.outF.cap ∧ 0 < s.inF.cap ∧
        newObs s t = [.returned .none]))

/-- PENDING is set only by BEGIN's posting step, which also leaves APP waiting, and cleared only by the tick's
`T_CFG_DONE`, which also returns (section 10.4). -/
def Obligations.PendingHasTwoWriters : Prop :=
  ∀ s t : State, step s = .next t →
    (s.pending = false → t.pending = true → s.bpc = .idle ∧ s.mode = .uninit ∧ t.bpc = .wait) ∧
    (s.pending = true → t.pending = false → s.tpc = .cfgDone ∧ t.tpc = .idle)

/-- LAST_TS is written only by `T_FINISH`, and BUSY rises only when the tick takes the lock for an exchange and falls
only at `T_FINISH` (sections 10.4 and 10.5). -/
def Obligations.TimestampAndGuardWriters : Prop :=
  ∀ s t : State, s.Inv → step s = .next t →
    (t.lastTs ≠ s.lastTs → s.tpc = .finish ∧ t.lastTs = s.now) ∧
    (s.busy = false → t.busy = true → s.tpc = .idle ∧ t.tpc = .budget ∧ t.lock = .own) ∧
    (s.busy = true → t.busy = false → s.tpc = .finish)

/-- The lock is given up only by the tick's own release steps or by REL: a step that changes OWN leaves FREE, at
`T_CFG_DONE` or `T_UNLOCK`, or between ticks by APP's REL call (sections 10.7 and 20.5; the call's bytes are
the model's choice, log entry 9). The tick tries for the lock, with or without success, holds it, gives it up and sends frames only with the bus handle (R49, log entry 24). -/
def Obligations.OnlyReleasesGiveUpTheLock : Prop :=
  (∀ s t : State, step s = .next t → s.lock = .own → t.lock ≠ .own →
    t.lock = .free ∧
    ((s.tpc = .cfgDone ∧ t.tpc = .idle) ∨ (s.tpc = .unlock ∧ t.tpc = .inspect) ∨
     (s.tpc = .idle ∧ t.tpc = .idle ∧ newObs s t = [.returned .none] ∧
        ∃ call rest, s.app = call :: rest ∧ decodeCall call = .ok .rel))) ∧
  (∀ s t : State, s.Inv → step s = .next t →
    s.tpc.holdsLock = true ∨ t.tpc.holdsLock = true ∨ (∃ f, .sent f ∈ newObs s t) ∨
      (∃ site, .event (.busLockUnavailable site) ∈ newObs s t) → s.busHandle = true)

/-- Every frame a step puts on the bus is one of the three the block sends, satisfies Verify, is what TXF holds
afterwards, and is sent while the lock is held; no step sends two (sections 30.5, 43.5 and 20.5). -/
def Obligations.SentFramesAreSealedAndLocked : Prop :=
  ∀ s t : State, step s = .next t → ∀ f : Frame, .sent f ∈ newObs s t →
    newObs s t = [.sent f] ∧ t.txf = f ∧ s.lock = .own ∧ t.lock = .own ∧ verify s.cfg f = true ∧ sendable s.cfg f

/-- TXF changes only by sending a frame, and RXF only in the same step (section 10.2). -/
def Obligations.FrameFilesChangeOnlyOnTheBus : Prop :=
  ∀ s t : State, step s = .next t → t.txf ≠ s.txf ∨ t.rxf ≠ s.rxf → newObs s t = [.sent t.txf]

/-- What a step does to the FIFOs. OUT gains, at its young end, a prefix of the bytes of the WRITE that APP issues and
whose result counts them; it loses, at its old end, the NTX bytes that a data-write frame takes; BEGIN's posting step
empties it; otherwise it is as before. IN loses, at its old end, the bytes that the step returns to APP; it gains, at
`T_INSPECT` and at its young end, the first bytes of the received payload; otherwise it is as before (sections 10.6 and
20.5; the call's bytes are the model's choice, log entry 9). -/
def Obligations.FifosKeepOrderAndBytes : Prop :=
  ∀ s t : State, s.Inv → step s = .next t →
    (t.outF.bytes = s.outF.bytes ∨
     (∃ call rest d v, s.app = call :: rest ∧ decodeCall call = .ok (.write d) ∧ v <+: d ∧
       t.outF.bytes = s.outF.bytes ++ v ∧ newObs s t = [.returned (.accepted v.length)]) ∨
     (s.tpc = .wrXfer ∧ t.outF.bytes = s.outF.bytes.drop s.ntx ∧
       newObs s t = [.sent (buildDataWr s.cfg (s.outF.bytes.take s.ntx))]) ∨
     (s.mode = .uninit ∧ s.bpc = .idle ∧ t.bpc = .wait ∧ t.pending = true ∧ t.outF.bytes = [])) ∧
    (t.inF.bytes = s.inF.bytes ∨
     (∃ k, t.inF.bytes = s.inF.bytes.drop k ∧ newObs s t = [.returned (.bytes (s.inF.bytes.take k))]) ∨
     (s.tpc = .inspect ∧ ∃ m, m ≤ 2 * s.cfg.n ∧ m ≤ s.rxf.offset.toNat ∧
       t.inF.bytes = s.inF.bytes ++ unpackBytes s.rxf.payload m))

/-- In PASSTHROUGH mode every step leaves the block as it is, puts no frame on the bus, and neither takes nor gives up the
bus lock (sections 40 and 60.5; for TRYACQ and REL see log entry 12). -/
def Obligations.PassThroughFreezesTheBlock : Prop :=
  ∀ s t : State, s.Inv → s.mode = .passthrough → step s = .next t →
    t.block = s.block ∧ (t.lock = .own ↔ s.lock = .own) ∧ ∀ f : Frame, .sent f ∉ newObs s t

/-- A WRITE between `T_BUDGET` and `T_WR_XFER` does not change the data-write frame that is sent: it only adds bytes at
the young end of OUT (section 41.5, marked as derived). A WRITE before `T_BUDGET` may change the budget and with it the
frame. -/
def Obligations.WriteAfterTheBudgetKeepsTheFrame : Prop :=
  ∀ (s : State) (d : List Byte), s.Inv → s.tpc = .wrXfer →
    ∃ (s1 t t1 : State) (v : List Byte), exec (.write d) s = .next s1 ∧ tickerTurn s = .next t ∧
      tickerTurn s1 = .next t1 ∧ s1.outF.bytes = s.outF.bytes ++ v ∧ t1.txf = t.txf ∧ t1.rxf = t.rxf ∧
      t1.outF.bytes = t.outF.bytes ++ v

/-- The history is never read: prefixing it with anything changes nothing else of any step (section 60.1, decision
D36: no later step reads it; the field is the model's own, log entry 8). -/
def Obligations.HistoryIsNeverRead : Prop :=
  ∀ (s : State) (h : List Obs),
    step { s with trace := h ++ s.trace } = mapNext (fun t => { t with trace := h ++ t.trace }) (step s)
end

