-- ==== Sys2Proof/Laws/Framer.lean ====
section
/-! SUPPORT. The framer's laws: lengths, the byte halves of a word, and that no word of a frame depends on an
earlier one. -/

namespace Sys2Proof.Machine

@[simp] theorem wordOf_loByte_hiByte (w : Word) : wordOf (loByte w) (hiByte w) = w := by
  unfold wordOf loByte hiByte
  apply BitVec.eq_of_getLsbD_eq
  intro i hi
  simp only [BitVec.getLsbD_append, BitVec.getLsbD_extractLsb']
  by_cases h : i < 8
  · simp [h]
  · have h2 : i - 8 < 8 := by omega
    have h3 : 8 + (i - 8) = i := by omega
    simp [h, h2, h3]

@[simp] theorem loByte_wordOf (lo hi : Byte) : loByte (wordOf lo hi) = lo := by
  unfold wordOf loByte
  apply BitVec.eq_of_getLsbD_eq
  intro i hi
  simp only [BitVec.getLsbD_append, BitVec.getLsbD_extractLsb']
  simp [hi]

@[simp] theorem hiByte_wordOf (lo hi : Byte) : hiByte (wordOf lo hi) = hi := by
  unfold wordOf hiByte
  apply BitVec.eq_of_getLsbD_eq
  intro i hi
  simp only [BitVec.getLsbD_append, BitVec.getLsbD_extractLsb']
  simp [hi]

@[simp] theorem frameWords_length (f : Frame) : (frameWords f).length = f.payload.length + 4 := by
  simp [frameWords]

/-- Every frame of N payload words is FRAME_BYTES long on the wire (R101). -/
theorem wireBytes_length (f : Frame) : (wireBytes f).length = 2 * (f.payload.length + 4) := by
  have h : ∀ ws : List Word, (ws.flatMap fun w => [loByte w, hiByte w]).length = 2 * ws.length := by
    intro ws
    induction ws with
    | nil => rfl
    | cons w ws ih => simp only [List.flatMap_cons, List.length_append, ih, List.length_cons, List.length_nil]; omega
  rw [wireBytes, h, frameWords_length]

@[simp] theorem baudPayload_length (n : Nat) (b : Word32) : (baudPayload n b).length = n := by
  simp [baudPayload]

@[simp] theorem packBytes_length (n : Nat) (d : List Byte) : (packBytes n d).length = n := by
  simp [packBytes]

@[simp] theorem unpackBytes_length (p : List Word) (m : Nat) : (unpackBytes p m).length = m := by
  simp [unpackBytes]

@[simp] theorem sealFrame_payload (c : Cfg) (f : Frame) : (sealFrame c f).payload = f.payload := rfl

@[simp] theorem sealFrame_cc (c : Cfg) (f : Frame) : (sealFrame c f).cc = f.cc := rfl

@[simp] theorem sealFrame_page (c : Cfg) (f : Frame) : (sealFrame c f).page = f.page := rfl

@[simp] theorem sealFrame_offset (c : Cfg) (f : Frame) : (sealFrame c f).offset = f.offset := rfl

@[simp] theorem sealFrame_cksum (c : Cfg) (f : Frame) : (sealFrame c f).cksum = cksum c f := rfl

/-- The old checksum word does not enter the checksum (R222). -/
@[simp] theorem cksum_withCksum (c : Cfg) (f : Frame) (w : Word) : cksum c { f with cksum := w } = cksum c f := rfl

@[simp] theorem buildCfgBaud_payload_length (c : Cfg) (b : Word32) : (buildCfgBaud c b).payload.length = c.n := by
  simp [buildCfgBaud]

@[simp] theorem buildDataWr_payload_length (c : Cfg) (d : List Byte) : (buildDataWr c d).payload.length = c.n := by
  simp [buildDataWr]

@[simp] theorem buildDataRd_payload_length (c : Cfg) : (buildDataRd c).payload.length = c.n := by
  simp [buildDataRd]

theorem wordsOfBytes_length : ∀ b : List Byte, (wordsOfBytes b).length = b.length / 2
  | [] => rfl
  | [_] => by simp [wordsOfBytes]
  | _ :: _ :: rest => by
    simp only [wordsOfBytes, List.length_cons, wordsOfBytes_length rest]
    omega

/-- DECODE of FRAME_BYTES bytes gives N payload words (R241). -/
theorem decodeFrame_payload_length {n : Nat} {b : List Byte} (h : b.length = 2 * (n + 4)) :
    (decodeFrame n b).payload.length = n := by
  simp only [decodeFrame, frameOfWords, List.length_take, List.length_drop, wordsOfBytes_length]
  omega

end Sys2Proof.Machine
end

