-- ==== Sys2Proof/Laws/State.lean ====
section
/-! SUPPORT. One lemma per field per update: what each named update of the state does to each field, so that no later
proof unfolds a record update. -/

namespace Sys2Proof.Machine

/-! ### `State.emit` -/

@[simp] theorem State.emit_cfg (s : State) (o : Obs) : (s.emit o).cfg = s.cfg := rfl
@[simp] theorem State.emit_txf (s : State) (o : Obs) : (s.emit o).txf = s.txf := rfl
@[simp] theorem State.emit_rxf (s : State) (o : Obs) : (s.emit o).rxf = s.rxf := rfl
@[simp] theorem State.emit_tpc (s : State) (o : Obs) : (s.emit o).tpc = s.tpc := rfl
@[simp] theorem State.emit_bpc (s : State) (o : Obs) : (s.emit o).bpc = s.bpc := rfl
@[simp] theorem State.emit_pending (s : State) (o : Obs) : (s.emit o).pending = s.pending := rfl
@[simp] theorem State.emit_busy (s : State) (o : Obs) : (s.emit o).busy = s.busy := rfl
@[simp] theorem State.emit_mode (s : State) (o : Obs) : (s.emit o).mode = s.mode := rfl
@[simp] theorem State.emit_baud (s : State) (o : Obs) : (s.emit o).baud = s.baud := rfl
@[simp] theorem State.emit_lastTs (s : State) (o : Obs) : (s.emit o).lastTs = s.lastTs := rfl
@[simp] theorem State.emit_busHandle (s : State) (o : Obs) : (s.emit o).busHandle = s.busHandle := rfl
@[simp] theorem State.emit_ntx (s : State) (o : Obs) : (s.emit o).ntx = s.ntx := rfl
@[simp] theorem State.emit_outF (s : State) (o : Obs) : (s.emit o).outF = s.outF := rfl
@[simp] theorem State.emit_inF (s : State) (o : Obs) : (s.emit o).inF = s.inF := rfl
@[simp] theorem State.emit_lock (s : State) (o : Obs) : (s.emit o).lock = s.lock := rfl
@[simp] theorem State.emit_clk (s : State) (o : Obs) : (s.emit o).clk = s.clk := rfl
@[simp] theorem State.emit_draws (s : State) (o : Obs) : (s.emit o).draws = s.draws := rfl
@[simp] theorem State.emit_drawn (s : State) (o : Obs) : (s.emit o).drawn = s.drawn := rfl
@[simp] theorem State.emit_toParams (s : State) (o : Obs) : (s.emit o).toParams = s.toParams := rfl
@[simp] theorem State.emit_app (s : State) (o : Obs) : (s.emit o).app = s.app := rfl
@[simp] theorem State.emit_sched (s : State) (o : Obs) : (s.emit o).sched = s.sched := rfl
@[simp] theorem State.emit_trace (s : State) (o : Obs) : (s.emit o).trace = s.trace ++ [o] := rfl

/-! ### `State.goto` -/

@[simp] theorem State.goto_cfg (s : State) (t : TickStep) : (s.goto t).cfg = s.cfg := rfl
@[simp] theorem State.goto_txf (s : State) (t : TickStep) : (s.goto t).txf = s.txf := rfl
@[simp] theorem State.goto_rxf (s : State) (t : TickStep) : (s.goto t).rxf = s.rxf := rfl
@[simp] theorem State.goto_tpc (s : State) (t : TickStep) : (s.goto t).tpc = t := rfl
@[simp] theorem State.goto_bpc (s : State) (t : TickStep) : (s.goto t).bpc = s.bpc := rfl
@[simp] theorem State.goto_pending (s : State) (t : TickStep) : (s.goto t).pending = s.pending := rfl
@[simp] theorem State.goto_busy (s : State) (t : TickStep) : (s.goto t).busy = s.busy := rfl
@[simp] theorem State.goto_mode (s : State) (t : TickStep) : (s.goto t).mode = s.mode := rfl
@[simp] theorem State.goto_baud (s : State) (t : TickStep) : (s.goto t).baud = s.baud := rfl
@[simp] theorem State.goto_lastTs (s : State) (t : TickStep) : (s.goto t).lastTs = s.lastTs := rfl
@[simp] theorem State.goto_busHandle (s : State) (t : TickStep) : (s.goto t).busHandle = s.busHandle := rfl
@[simp] theorem State.goto_ntx (s : State) (t : TickStep) : (s.goto t).ntx = s.ntx := rfl
@[simp] theorem State.goto_outF (s : State) (t : TickStep) : (s.goto t).outF = s.outF := rfl
@[simp] theorem State.goto_inF (s : State) (t : TickStep) : (s.goto t).inF = s.inF := rfl
@[simp] theorem State.goto_lock (s : State) (t : TickStep) : (s.goto t).lock = s.lock := rfl
@[simp] theorem State.goto_clk (s : State) (t : TickStep) : (s.goto t).clk = s.clk := rfl
@[simp] theorem State.goto_draws (s : State) (t : TickStep) : (s.goto t).draws = s.draws := rfl
@[simp] theorem State.goto_drawn (s : State) (t : TickStep) : (s.goto t).drawn = s.drawn := rfl
@[simp] theorem State.goto_toParams (s : State) (t : TickStep) : (s.goto t).toParams = s.toParams := rfl
@[simp] theorem State.goto_app (s : State) (t : TickStep) : (s.goto t).app = s.app := rfl
@[simp] theorem State.goto_sched (s : State) (t : TickStep) : (s.goto t).sched = s.sched := rfl
@[simp] theorem State.goto_trace (s : State) (t : TickStep) : (s.goto t).trace = s.trace := rfl

/-! ### `State.takeLock` -/

@[simp] theorem State.takeLock_cfg (s : State) : s.takeLock.cfg = s.cfg := rfl
@[simp] theorem State.takeLock_txf (s : State) : s.takeLock.txf = s.txf := rfl
@[simp] theorem State.takeLock_rxf (s : State) : s.takeLock.rxf = s.rxf := rfl
@[simp] theorem State.takeLock_tpc (s : State) : s.takeLock.tpc = s.tpc := rfl
@[simp] theorem State.takeLock_bpc (s : State) : s.takeLock.bpc = s.bpc := rfl
@[simp] theorem State.takeLock_pending (s : State) : s.takeLock.pending = s.pending := rfl
@[simp] theorem State.takeLock_busy (s : State) : s.takeLock.busy = s.busy := rfl
@[simp] theorem State.takeLock_mode (s : State) : s.takeLock.mode = s.mode := rfl
@[simp] theorem State.takeLock_baud (s : State) : s.takeLock.baud = s.baud := rfl
@[simp] theorem State.takeLock_lastTs (s : State) : s.takeLock.lastTs = s.lastTs := rfl
@[simp] theorem State.takeLock_busHandle (s : State) : s.takeLock.busHandle = s.busHandle := rfl
@[simp] theorem State.takeLock_ntx (s : State) : s.takeLock.ntx = s.ntx := rfl
@[simp] theorem State.takeLock_outF (s : State) : s.takeLock.outF = s.outF := rfl
@[simp] theorem State.takeLock_inF (s : State) : s.takeLock.inF = s.inF := rfl
@[simp] theorem State.takeLock_lock (s : State) : s.takeLock.lock = .own := rfl
@[simp] theorem State.takeLock_clk (s : State) : s.takeLock.clk = s.clk := rfl
@[simp] theorem State.takeLock_draws (s : State) : s.takeLock.draws = s.draws := rfl
@[simp] theorem State.takeLock_app (s : State) : s.takeLock.app = s.app := rfl
@[simp] theorem State.takeLock_sched (s : State) : s.takeLock.sched = s.sched := rfl
@[simp] theorem State.takeLock_trace (s : State) : s.takeLock.trace = s.trace := rfl

/-! ### `State.postBaud` -/

@[simp] theorem State.postBaud_cfg (s : State) (b : Word32) : (s.postBaud b).cfg = s.cfg := rfl
@[simp] theorem State.postBaud_txf (s : State) (b : Word32) : (s.postBaud b).txf = s.txf := rfl
@[simp] theorem State.postBaud_rxf (s : State) (b : Word32) : (s.postBaud b).rxf = s.rxf := rfl
@[simp] theorem State.postBaud_tpc (s : State) (b : Word32) : (s.postBaud b).tpc = s.tpc := rfl
@[simp] theorem State.postBaud_bpc (s : State) (b : Word32) : (s.postBaud b).bpc = s.bpc := rfl
@[simp] theorem State.postBaud_pending (s : State) (b : Word32) : (s.postBaud b).pending = true := rfl
@[simp] theorem State.postBaud_busy (s : State) (b : Word32) : (s.postBaud b).busy = s.busy := rfl
@[simp] theorem State.postBaud_mode (s : State) (b : Word32) : (s.postBaud b).mode = s.mode := rfl
@[simp] theorem State.postBaud_baud (s : State) (b : Word32) : (s.postBaud b).baud = b := rfl
@[simp] theorem State.postBaud_lastTs (s : State) (b : Word32) : (s.postBaud b).lastTs = s.lastTs := rfl
@[simp] theorem State.postBaud_busHandle (s : State) (b : Word32) : (s.postBaud b).busHandle = s.busHandle := rfl
@[simp] theorem State.postBaud_ntx (s : State) (b : Word32) : (s.postBaud b).ntx = s.ntx := rfl
@[simp] theorem State.postBaud_outF (s : State) (b : Word32) : (s.postBaud b).outF = s.outF := rfl
@[simp] theorem State.postBaud_inF (s : State) (b : Word32) : (s.postBaud b).inF = s.inF := rfl
@[simp] theorem State.postBaud_lock (s : State) (b : Word32) : (s.postBaud b).lock = s.lock := rfl
@[simp] theorem State.postBaud_clk (s : State) (b : Word32) : (s.postBaud b).clk = s.clk := rfl
@[simp] theorem State.postBaud_draws (s : State) (b : Word32) : (s.postBaud b).draws = s.draws := rfl
@[simp] theorem State.postBaud_drawn (s : State) (b : Word32) : (s.postBaud b).drawn = s.drawn := rfl
@[simp] theorem State.postBaud_toParams (s : State) (b : Word32) : (s.postBaud b).toParams = s.toParams := rfl
@[simp] theorem State.postBaud_app (s : State) (b : Word32) : (s.postBaud b).app = s.app := rfl
@[simp] theorem State.postBaud_sched (s : State) (b : Word32) : (s.postBaud b).sched = s.sched := rfl
@[simp] theorem State.postBaud_trace (s : State) (b : Word32) : (s.postBaud b).trace = s.trace := rfl

/-! ### `State.clearPending` -/

@[simp] theorem State.clearPending_cfg (s : State) : s.clearPending.cfg = s.cfg := rfl
@[simp] theorem State.clearPending_txf (s : State) : s.clearPending.txf = s.txf := rfl
@[simp] theorem State.clearPending_rxf (s : State) : s.clearPending.rxf = s.rxf := rfl
@[simp] theorem State.clearPending_tpc (s : State) : s.clearPending.tpc = s.tpc := rfl
@[simp] theorem State.clearPending_bpc (s : State) : s.clearPending.bpc = s.bpc := rfl
@[simp] theorem State.clearPending_pending (s : State) : s.clearPending.pending = false := rfl
@[simp] theorem State.clearPending_busy (s : State) : s.clearPending.busy = s.busy := rfl
@[simp] theorem State.clearPending_mode (s : State) : s.clearPending.mode = s.mode := rfl
@[simp] theorem State.clearPending_baud (s : State) : s.clearPending.baud = s.baud := rfl
@[simp] theorem State.clearPending_lastTs (s : State) : s.clearPending.lastTs = s.lastTs := rfl
@[simp] theorem State.clearPending_busHandle (s : State) : s.clearPending.busHandle = s.busHandle := rfl
@[simp] theorem State.clearPending_ntx (s : State) : s.clearPending.ntx = s.ntx := rfl
@[simp] theorem State.clearPending_outF (s : State) : s.clearPending.outF = s.outF := rfl
@[simp] theorem State.clearPending_inF (s : State) : s.clearPending.inF = s.inF := rfl
@[simp] theorem State.clearPending_lock (s : State) : s.clearPending.lock = s.lock := rfl
@[simp] theorem State.clearPending_clk (s : State) : s.clearPending.clk = s.clk := rfl
@[simp] theorem State.clearPending_draws (s : State) : s.clearPending.draws = s.draws := rfl
@[simp] theorem State.clearPending_app (s : State) : s.clearPending.app = s.app := rfl
@[simp] theorem State.clearPending_sched (s : State) : s.clearPending.sched = s.sched := rfl
@[simp] theorem State.clearPending_trace (s : State) : s.clearPending.trace = s.trace := rfl

/-! ### `State.setBusy` -/

@[simp] theorem State.setBusy_cfg (s : State) : s.setBusy.cfg = s.cfg := rfl
@[simp] theorem State.setBusy_txf (s : State) : s.setBusy.txf = s.txf := rfl
@[simp] theorem State.setBusy_rxf (s : State) : s.setBusy.rxf = s.rxf := rfl
@[simp] theorem State.setBusy_tpc (s : State) : s.setBusy.tpc = s.tpc := rfl
@[simp] theorem State.setBusy_bpc (s : State) : s.setBusy.bpc = s.bpc := rfl
@[simp] theorem State.setBusy_pending (s : State) : s.setBusy.pending = s.pending := rfl
@[simp] theorem State.setBusy_busy (s : State) : s.setBusy.busy = true := rfl
@[simp] theorem State.setBusy_mode (s : State) : s.setBusy.mode = s.mode := rfl
@[simp] theorem State.setBusy_baud (s : State) : s.setBusy.baud = s.baud := rfl
@[simp] theorem State.setBusy_lastTs (s : State) : s.setBusy.lastTs = s.lastTs := rfl
@[simp] theorem State.setBusy_busHandle (s : State) : s.setBusy.busHandle = s.busHandle := rfl
@[simp] theorem State.setBusy_ntx (s : State) : s.setBusy.ntx = s.ntx := rfl
@[simp] theorem State.setBusy_outF (s : State) : s.setBusy.outF = s.outF := rfl
@[simp] theorem State.setBusy_inF (s : State) : s.setBusy.inF = s.inF := rfl
@[simp] theorem State.setBusy_lock (s : State) : s.setBusy.lock = s.lock := rfl
@[simp] theorem State.setBusy_clk (s : State) : s.setBusy.clk = s.clk := rfl
@[simp] theorem State.setBusy_draws (s : State) : s.setBusy.draws = s.draws := rfl
@[simp] theorem State.setBusy_app (s : State) : s.setBusy.app = s.app := rfl
@[simp] theorem State.setBusy_sched (s : State) : s.setBusy.sched = s.sched := rfl
@[simp] theorem State.setBusy_trace (s : State) : s.setBusy.trace = s.trace := rfl

/-! ### `State.clearBusy` -/

@[simp] theorem State.clearBusy_cfg (s : State) : s.clearBusy.cfg = s.cfg := rfl
@[simp] theorem State.clearBusy_txf (s : State) : s.clearBusy.txf = s.txf := rfl
@[simp] theorem State.clearBusy_rxf (s : State) : s.clearBusy.rxf = s.rxf := rfl
@[simp] theorem State.clearBusy_tpc (s : State) : s.clearBusy.tpc = s.tpc := rfl
@[simp] theorem State.clearBusy_bpc (s : State) : s.clearBusy.bpc = s.bpc := rfl
@[simp] theorem State.clearBusy_pending (s : State) : s.clearBusy.pending = s.pending := rfl
@[simp] theorem State.clearBusy_busy (s : State) : s.clearBusy.busy = false := rfl
@[simp] theorem State.clearBusy_mode (s : State) : s.clearBusy.mode = s.mode := rfl
@[simp] theorem State.clearBusy_baud (s : State) : s.clearBusy.baud = s.baud := rfl
@[simp] theorem State.clearBusy_lastTs (s : State) : s.clearBusy.lastTs = s.lastTs := rfl
@[simp] theorem State.clearBusy_busHandle (s : State) : s.clearBusy.busHandle = s.busHandle := rfl
@[simp] theorem State.clearBusy_ntx (s : State) : s.clearBusy.ntx = s.ntx := rfl
@[simp] theorem State.clearBusy_outF (s : State) : s.clearBusy.outF = s.outF := rfl
@[simp] theorem State.clearBusy_inF (s : State) : s.clearBusy.inF = s.inF := rfl
@[simp] theorem State.clearBusy_lock (s : State) : s.clearBusy.lock = s.lock := rfl
@[simp] theorem State.clearBusy_clk (s : State) : s.clearBusy.clk = s.clk := rfl
@[simp] theorem State.clearBusy_draws (s : State) : s.clearBusy.draws = s.draws := rfl
@[simp] theorem State.clearBusy_app (s : State) : s.clearBusy.app = s.app := rfl
@[simp] theorem State.clearBusy_sched (s : State) : s.clearBusy.sched = s.sched := rfl
@[simp] theorem State.clearBusy_trace (s : State) : s.clearBusy.trace = s.trace := rfl

/-! ### `State.advance` -/

@[simp] theorem State.advance_cfg (s : State) (us : Nat) : (s.advance us).cfg = s.cfg := rfl
@[simp] theorem State.advance_txf (s : State) (us : Nat) : (s.advance us).txf = s.txf := rfl
@[simp] theorem State.advance_rxf (s : State) (us : Nat) : (s.advance us).rxf = s.rxf := rfl
@[simp] theorem State.advance_tpc (s : State) (us : Nat) : (s.advance us).tpc = s.tpc := rfl
@[simp] theorem State.advance_bpc (s : State) (us : Nat) : (s.advance us).bpc = s.bpc := rfl
@[simp] theorem State.advance_pending (s : State) (us : Nat) : (s.advance us).pending = s.pending := rfl
@[simp] theorem State.advance_busy (s : State) (us : Nat) : (s.advance us).busy = s.busy := rfl
@[simp] theorem State.advance_mode (s : State) (us : Nat) : (s.advance us).mode = s.mode := rfl
@[simp] theorem State.advance_baud (s : State) (us : Nat) : (s.advance us).baud = s.baud := rfl
@[simp] theorem State.advance_lastTs (s : State) (us : Nat) : (s.advance us).lastTs = s.lastTs := rfl
@[simp] theorem State.advance_busHandle (s : State) (us : Nat) : (s.advance us).busHandle = s.busHandle := rfl
@[simp] theorem State.advance_ntx (s : State) (us : Nat) : (s.advance us).ntx = s.ntx := rfl
@[simp] theorem State.advance_outF (s : State) (us : Nat) : (s.advance us).outF = s.outF := rfl
@[simp] theorem State.advance_inF (s : State) (us : Nat) : (s.advance us).inF = s.inF := rfl
@[simp] theorem State.advance_lock (s : State) (us : Nat) : (s.advance us).lock = s.lock := rfl
@[simp] theorem State.advance_clk (s : State) (us : Nat) : (s.advance us).clk = s.clk + us := rfl
@[simp] theorem State.advance_draws (s : State) (us : Nat) : (s.advance us).draws = s.draws := rfl
@[simp] theorem State.advance_drawn (s : State) (us : Nat) : (s.advance us).drawn = s.drawn := rfl
@[simp] theorem State.advance_toParams (s : State) (us : Nat) : (s.advance us).toParams = s.toParams := rfl
@[simp] theorem State.advance_app (s : State) (us : Nat) : (s.advance us).app = s.app := rfl
@[simp] theorem State.advance_sched (s : State) (us : Nat) : (s.advance us).sched = s.sched := rfl
@[simp] theorem State.advance_trace (s : State) (us : Nat) : (s.advance us).trace = s.trace := rfl

/-! ### `State.setDrawn` -/

@[simp] theorem State.setDrawn_cfg (s : State) (d : Drawn) : (s.setDrawn d).cfg = s.cfg := rfl
@[simp] theorem State.setDrawn_txf (s : State) (d : Drawn) : (s.setDrawn d).txf = s.txf := rfl
@[simp] theorem State.setDrawn_rxf (s : State) (d : Drawn) : (s.setDrawn d).rxf = s.rxf := rfl
@[simp] theorem State.setDrawn_tpc (s : State) (d : Drawn) : (s.setDrawn d).tpc = s.tpc := rfl
@[simp] theorem State.setDrawn_bpc (s : State) (d : Drawn) : (s.setDrawn d).bpc = s.bpc := rfl
@[simp] theorem State.setDrawn_pending (s : State) (d : Drawn) : (s.setDrawn d).pending = s.pending := rfl
@[simp] theorem State.setDrawn_busy (s : State) (d : Drawn) : (s.setDrawn d).busy = s.busy := rfl
@[simp] theorem State.setDrawn_mode (s : State) (d : Drawn) : (s.setDrawn d).mode = s.mode := rfl
@[simp] theorem State.setDrawn_baud (s : State) (d : Drawn) : (s.setDrawn d).baud = s.baud := rfl
@[simp] theorem State.setDrawn_lastTs (s : State) (d : Drawn) : (s.setDrawn d).lastTs = s.lastTs := rfl
@[simp] theorem State.setDrawn_busHandle (s : State) (d : Drawn) : (s.setDrawn d).busHandle = s.busHandle := rfl
@[simp] theorem State.setDrawn_ntx (s : State) (d : Drawn) : (s.setDrawn d).ntx = s.ntx := rfl
@[simp] theorem State.setDrawn_outF (s : State) (d : Drawn) : (s.setDrawn d).outF = s.outF := rfl
@[simp] theorem State.setDrawn_inF (s : State) (d : Drawn) : (s.setDrawn d).inF = s.inF := rfl
@[simp] theorem State.setDrawn_lock (s : State) (d : Drawn) : (s.setDrawn d).lock = s.lock := rfl
@[simp] theorem State.setDrawn_clk (s : State) (d : Drawn) : (s.setDrawn d).clk = s.clk := rfl
@[simp] theorem State.setDrawn_draws (s : State) (d : Drawn) : (s.setDrawn d).draws = s.draws := rfl
@[simp] theorem State.setDrawn_drawn (s : State) (d : Drawn) : (s.setDrawn d).drawn = d := rfl
@[simp] theorem State.setDrawn_toParams (s : State) (d : Drawn) : (s.setDrawn d).toParams = s.toParams := rfl
@[simp] theorem State.setDrawn_app (s : State) (d : Drawn) : (s.setDrawn d).app = s.app := rfl
@[simp] theorem State.setDrawn_sched (s : State) (d : Drawn) : (s.setDrawn d).sched = s.sched := rfl
@[simp] theorem State.setDrawn_trace (s : State) (d : Drawn) : (s.setDrawn d).trace = s.trace := rfl

/-! ### The updates that are one of these -/

@[simp] theorem State.raise_eq (s : State) (e : Event) : s.raise e = s.emit (.event e) := rfl

@[simp] theorem State.returns_eq (s : State) (r : Result) : s.returns r = s.emit (.returned r) := rfl

@[simp] theorem State.delegate_eq (s : State) (d : Delegation) : s.delegate d = s.emit (.delegated d) := rfl

@[simp] theorem State.drewExtOk_eq (s : State) :
    s.drewExtOk = s.setDrawn { s.drawn with extOk := s.drawn.extOk + 1 } := rfl

@[simp] theorem State.drewAllocs_eq (s : State) :
    s.drewAllocs = s.setDrawn { s.drawn with alloc := s.drawn.alloc + 1 } := rfl

@[simp] theorem State.drewRx_eq (s : State) : s.drewRx = s.setDrawn { s.drawn with rx := s.drawn.rx + 1 } := rfl

@[simp] theorem State.drewUartAccepted_eq (s : State) :
    s.drewUartAccepted = s.setDrawn { s.drawn with uartAccepted := s.drawn.uartAccepted + 1 } := rfl

@[simp] theorem State.drewUartBytes_eq (s : State) :
    s.drewUartBytes = s.setDrawn { s.drawn with uartBytes := s.drawn.uartBytes + 1 } := rfl

@[simp] theorem State.drewUartAcquired_eq (s : State) :
    s.drewUartAcquired = s.setDrawn { s.drawn with uartAcquired := s.drawn.uartAcquired + 1 } := rfl

end Sys2Proof.Machine
end

