-- ==== Sys2Proof/Laws/Ops.lean ====
section
/-! SUPPORT. One lemma per shared operation that says everything it can do: sequencing, guards, the lock, the FIFOs,
the draws, the bus transaction. Later proofs cite these and do not unfold the operations. -/

namespace Sys2Proof.Machine

/-! ### Sequencing and guards -/

@[simp] theorem thenDo_next (s : State) (k : State → Outcome) : thenDo (.next s) k = k s := rfl

@[simp] theorem thenDo_fault (r : Fault) (k : State → Outcome) : thenDo (.fault r) k = .fault r := rfl

@[simp] theorem thenDo_refused (r : Refusal) (k : State → Outcome) : thenDo (.refused r) k = .refused r := rfl

theorem thenDo_eq_next {o : Outcome} {k : State → Outcome} {t : State} :
    thenDo o k = .next t ↔ ∃ s, o = .next s ∧ k s = .next t := by
  cases o <;> simp

theorem thenDo_eq_fault {o : Outcome} {k : State → Outcome} {r : Fault} :
    thenDo o k = .fault r ↔ o = .fault r ∨ ∃ s, o = .next s ∧ k s = .fault r := by
  cases o <;> simp

theorem whenDue_eq_next {i : Instr} {s t : State} {k : State → Outcome} :
    whenDue i s k = .next t ↔ s.frameDue = some i ∧ k s = .next t := by
  unfold whenDue; split <;> simp_all

theorem whenDue_eq_fault {i : Instr} {s : State} {k : State → Outcome} {r : Fault} :
    whenDue i s k = .fault r ↔ s.frameDue = some i ∧ k s = .fault r := by
  unfold whenDue; split <;> simp_all

theorem whenDue_of_due {i : Instr} {s : State} {k : State → Outcome} (h : s.frameDue = some i) :
    whenDue i s k = k s := if_pos h

theorem whenAppFree_eq_next {s t : State} {k : State → Outcome} :
    whenAppFree s k = .next t ↔ s.bpc = .idle ∧ k s = .next t := by
  unfold whenAppFree; split <;> simp_all

theorem whenAppFree_eq_fault {s : State} {k : State → Outcome} {r : Fault} :
    whenAppFree s k = .fault r ↔ s.bpc = .idle ∧ k s = .fault r := by
  unfold whenAppFree; split <;> simp_all

theorem whenAppFree_of_idle {s : State} {k : State → Outcome} (h : s.bpc = .idle) : whenAppFree s k = k s :=
  if_pos h

/-! ### Raising events -/

theorem raiseIf_cases (s : State) (b : Bool) (e : Event) :
    (b = true ∧ s.raiseIf b e = s.emit (.event e)) ∨ (b = false ∧ s.raiseIf b e = s) := by
  cases b <;> simp [State.raiseIf]

/-- Raising events changes the history and nothing else. -/
theorem raiseIf_eq_withTrace (s : State) (b : Bool) (e : Event) :
    s.raiseIf b e = { s with trace := s.trace ++ if b then [.event e] else [] } := by
  cases b <;> simp [State.raiseIf, State.emit]

/-! ### The lock -/

theorem tryLock_cases (s : State) :
    (s.lock = .free ∧ s.tryLock = (true, s.takeLock)) ∨ (s.lock ≠ .free ∧ s.tryLock = (false, s)) := by
  unfold State.tryLock State.lockFree
  cases h : s.lock <;> simp

theorem unlock_eq_next {s t : State} : unlock s = .next t ↔ s.lock = .own ∧ t = { s with lock := .free } := by
  unfold unlock; split <;> simp_all [eq_comm]

theorem unlock_eq_fault {s : State} {r : Fault} : unlock s = .fault r ↔ s.lock ≠ .own ∧ r = .unlockNotOwned := by
  unfold unlock; split <;> simp_all [eq_comm]

/-- ENV's moves of the lock never touch OWN and never reach it (R53). -/
theorem busTaken_cases (s : State) :
    (s.lock = .free ∧ s.busTaken = { s with lock := .other }) ∨ (s.lock ≠ .free ∧ s.busTaken = s) := by
  unfold State.busTaken; cases h : s.lock <;> simp

theorem busReleased_cases (s : State) :
    (s.lock = .other ∧ s.busReleased = { s with lock := .free }) ∨ (s.lock ≠ .other ∧ s.busReleased = s) := by
  unfold State.busReleased; cases h : s.lock <;> simp

/-! ### The FIFOs -/

theorem pop_eq_some {f g : Fifo} {n : Nat} {v : List Byte} :
    f.pop n = some (v, g) ↔ n ≤ f.bytes.length ∧ v = f.bytes.take n ∧ g = { f with bytes := f.bytes.drop n } := by
  unfold Fifo.pop Fifo.size
  split <;> simp_all [eq_comm]

theorem pop_eq_none {f : Fifo} {n : Nat} : f.pop n = none ↔ f.bytes.length < n := by
  unfold Fifo.pop Fifo.size
  split <;> simp_all

theorem push_eq_some {f g : Fifo} {v : List Byte} :
    f.push v = some g ↔ v.length ≤ f.cap - f.bytes.length ∧ g = { f with bytes := f.bytes ++ v } := by
  unfold Fifo.push Fifo.free
  split <;> simp_all [eq_comm]

theorem push_eq_none {f : Fifo} {v : List Byte} : f.push v = none ↔ f.cap - f.bytes.length < v.length := by
  unfold Fifo.push Fifo.free
  split <;> simp_all

/-- A pop keeps the FIFO within its capacity. -/
theorem pop_keeps_wf {f g : Fifo} {n : Nat} {v : List Byte} (h : f.pop n = some (v, g)) (hf : f.wf = true) :
    g.wf = true := by
  obtain ⟨-, -, rfl⟩ := pop_eq_some.mp h
  simp only [Fifo.wf, decide_eq_true_eq, List.length_drop] at *
  omega

/-- A push keeps the FIFO within its capacity. -/
theorem push_keeps_wf {f g : Fifo} {v : List Byte} (h : f.push v = some g) (hf : f.wf = true) : g.wf = true := by
  obtain ⟨hv, rfl⟩ := push_eq_some.mp h
  simp only [Fifo.wf, decide_eq_true_eq, List.length_append] at *
  omega

/-- First in, first out (R87): what is popped from a FIFO that has the bytes is what was pushed first. -/
theorem push_then_pop {f g : Fifo} {v : List Byte} (h : f.push v = some g) :
    g.pop f.bytes.length = some (f.bytes, { f with bytes := v }) := by
  obtain ⟨-, rfl⟩ := push_eq_some.mp h
  simp [pop_eq_some]

/-! ### The received frame and the bus transaction -/

@[simp] theorem rxBytes_length (s : State) : s.rxBytes.length = s.cfg.frameBytes := by
  simp [State.rxBytes]

/-- The state after a bus transaction of the frame `f` (R78). -/
def State.afterXfer (s : State) (f : Frame) : State :=
  { s.drewRx with txf := f, rxf := decodeFrame s.cfg.n s.rxBytes }.emit (.sent f)

theorem busXfer_eq_next {f : Frame} {s t : State} :
    busXfer f s = .next t ↔ s.lock = .own ∧ t = s.afterXfer f := by
  unfold busXfer State.afterXfer; split <;> simp_all [eq_comm]

theorem busXfer_eq_fault {f : Frame} {s : State} {r : Fault} :
    busXfer f s = .fault r ↔ s.lock ≠ .own ∧ r = .busNotOwned := by
  unfold busXfer; split <;> simp_all [eq_comm]

theorem busXfer_of_own {f : Frame} {s : State} (h : s.lock = .own) : busXfer f s = .next (s.afterXfer f) :=
  busXfer_eq_next.mpr ⟨h, rfl⟩

/-- Which frame instruction is due says which micro-step it is, and what the frame is. -/
theorem frameDue_cases {s : State} {i : Instr} (h : s.frameDue = some i) :
    (s.tpc = .cfgXfer ∧ i = .cfgbaud s.baud) ∨ (s.tpc = .wrXfer ∧ i = .datawr (s.outF.bytes.take s.ntx)) ∨
    (s.tpc = .rdXfer ∧ i = .datard) ∨ (s.tpc = .inspect ∧ i = decodeRx s.cfg s.rxf) := by
  unfold State.frameDue at h
  cases ht : s.tpc <;> simp_all [eq_comm]

end Sys2Proof.Machine
end

