-- ==== Sys2Proof/Laws/PerInstr.lean ====
section
/-! SUPPORT. A law per instruction, as syntax: the size and the kind of its encoding (R101, R125). -/

namespace Sys2Proof.Laws.EncodedSize

open Sys2Proof Sys2Proof.Machine

/-- The kind of a packet and its size: a frame is FRAME_BYTES long (R101), a call has its select in bits 2:0 of a
first byte whose other bits are 0 (R125). -/
def sized (c : Cfg) (sel : BitVec 3) : Packet → Prop
  | .call bs => bs.head? = some ((0 : BitVec 5) ++ sel)
  | .tx bs => bs.length = c.frameBytes
  | .rx bs => bs.length = c.frameBytes

/-- The select of a host operation (R125); 0 for a frame, where it says nothing. -/
def selectOf : Instr → BitVec 3
  | .begin _ _ _ => 0
  | .write _ => 1
  | .read _ => 2
  | .isext => 3
  | .tryacq => 4
  | .rel => 5
  | .tick => 6
  | .reserved7 => 7
  | .cfgbaud _ | .datawr _ | .datard | .datarsp _ | .rd _ | .wr _ | .bulk _ | .k3 _ => 0

/-- Under every configuration in which it is well formed, the instruction's encoding has its size. -/
def Statement (i : Instr) : Prop := ∀ c : Cfg, i.wf c = true → sized c (selectOf i) (encode c i)

theorem wireBytes_frameBytes {c : Cfg} {f : Frame} (h : f.payload.length = c.n) :
    (wireBytes f).length = c.frameBytes := by
  rw [wireBytes_length, h, Cfg.frameBytes]

theorem framePacket_sized {c : Cfg} {sel : BitVec 3} {dir : Dir} {f : Frame}
    (h : (wireBytes f).length = c.frameBytes) : sized c sel (framePacket dir f) := by
  cases dir <;> exact h

theorem class_payload {c : Cfg} {kind : BitVec 2} {f : ClassFrame} (h : f.wf c kind = true) :
    f.payload.length = c.n := by
  simp only [ClassFrame.wf, Bool.and_eq_true, decide_eq_true_eq] at h
  exact h.1

theorem cfgbaud (b : Word32) : Statement (.cfgbaud b) := fun c _ =>
  wireBytes_frameBytes (buildCfgBaud_payload_length c b)

theorem datawr (d : List Byte) : Statement (.datawr d) := fun c _ =>
  wireBytes_frameBytes (buildDataWr_payload_length c d)

theorem datard : Statement .datard := fun c _ => wireBytes_frameBytes (buildDataRd_payload_length c)

theorem datarsp (r : RspFrame) : Statement (.datarsp r) := fun _ h =>
  wireBytes_frameBytes (of_decide_eq_true h)

theorem rd (f : ClassFrame) : Statement (.rd f) := fun _ h =>
  framePacket_sized (wireBytes_frameBytes (class_payload h))

theorem wr (f : ClassFrame) : Statement (.wr f) := fun _ h =>
  framePacket_sized (wireBytes_frameBytes (class_payload h))

theorem bulk (f : ClassFrame) : Statement (.bulk f) := fun _ h =>
  framePacket_sized (wireBytes_frameBytes (class_payload h))

theorem k3 (f : ClassFrame) : Statement (.k3 f) := fun _ h =>
  framePacket_sized (wireBytes_frameBytes (class_payload h))

theorem begin (b : Word32) (rx tx : Nat) : Statement (.begin b rx tx) := by intro c _; simp [sized, encode, selectOf]

theorem write (d : List Byte) : Statement (.write d) := by intro c _; simp [sized, encode, selectOf]

theorem read (n : Nat) : Statement (.read n) := by intro c _; simp [sized, encode, selectOf]

theorem isext : Statement .isext := fun _ _ => rfl

theorem tryacq : Statement .tryacq := fun _ _ => rfl

theorem rel : Statement .rel := fun _ _ => rfl

theorem tick : Statement .tick := fun _ _ => rfl

theorem reserved7 : Statement .reserved7 := fun _ _ => rfl

end Sys2Proof.Laws.EncodedSize
end

