-- ==== Sys2Proof/Laws/Step.lean ====
section
/-! SUPPORT. Everything a step can do, said once: inversion lemmas for the operations APP can call, for TICK's entry
step, for the micro-steps, for a turn and for the step. Later proofs cite these and do not unfold the meanings. -/

namespace Sys2Proof.Machine

/-! ### What a call can be -/

/-- A call decodes to a host operation, never to a frame (R125). -/
theorem decodeCall_cases {call : List Byte} {i : Instr} (h : decodeCall call = .ok i) :
    (∃ b rx tx, i = .begin b rx tx) ∨ (∃ d, i = .write d) ∨ (∃ n, i = .read n) ∨ i = .isext ∨ i = .tryacq ∨
      i = .rel ∨ i = .tick ∨ i = .reserved7 := by
  cases call with
  | nil => simp [decodeCall] at h
  | cons b operands =>
    simp only [decodeCall] at h
    split_ifs at h
    unfold decodeSelect at h
    split_ifs at h
    · unfold decodeBegin at h
      repeat' split at h
      all_goals cases h
      simp
    · cases h
      simp
    · unfold decodeRead at h
      repeat' split at h
      all_goals cases h
      simp
    all_goals
      cases operands <;> cases h
      simp

/-! ### The operations APP calls -/

/-- BEGIN completes in three ways (R141 to R143, R147). -/
theorem execBegin_eq_next {b : Word32} {rx tx : Nat} {s t : State} :
    execBegin b rx tx s = .next t ↔ s.bpc = .idle ∧
      ((s.mode = .uninit ∧ s.extOk = true ∧ t = s.drewExtOk.beginPassThrough b rx tx) ∨
       (s.mode = .uninit ∧ s.extOk = false ∧ t = s.drewExtOk.beginPost b rx tx) ∨
       (s.mode = .passthrough ∧ t = (s.emit (.delegated (.begin b rx tx))).emit (.returned .none))) := by
  unfold execBegin
  rw [whenAppFree_eq_next]
  refine and_congr_right fun _ => ?_
  cases hm : s.mode <;> cases he : s.extOk <;> simp [eq_comm]

/-- What the posting step leaves in every field it writes (R143). -/
theorem beginPost_eq (s : State) (b : Word32) (rx tx : Nat) :
    s.beginPost b rx tx = { s.drewAllocs with
      inF := { bytes := [], cap := allocated s.allocIn rx }
      outF := { bytes := [], cap := allocated s.allocOut tx }
      busHandle := true
      baud := b
      pending := true
      bpc := .wait
      trace := s.trace ++ ((if clampRaises rx then [.event (.capacityClamped .rx)] else []) ++
        (if clampRaises tx then [.event (.capacityClamped .tx)] else []) ++
        (if allocated s.allocIn rx == 0 || allocated s.allocOut tx == 0 then [.event .allocationFailed] else [])) } := by
  simp only [State.beginPost, State.raiseAllocation, raiseIf_eq_withTrace, State.postBaud, State.allocate,
    State.drewAllocs_eq, State.setDrawn, List.append_assoc]

/-- WRITE always accepts what fits, in the modes without delegation (R148). -/
theorem writeFifo_eq (d : List Byte) (s : State) :
    writeFifo d s = .next ({ s with
      outF := { s.outF with bytes := s.outF.bytes ++ d.take (min d.length s.outF.free) } }.emit
        (.returned (.accepted (min d.length s.outF.free)))) := by
  have h : s.outF.push (d.take (min d.length s.outF.free)) =
      some { s.outF with bytes := s.outF.bytes ++ d.take (min d.length s.outF.free) } := by
    rw [push_eq_some]
    refine ⟨?_, rfl⟩
    rw [List.length_take]
    unfold Fifo.free
    omega
  simp [writeFifo, h]

/-- READ always returns what is there, in the modes without delegation (R149). -/
theorem readFifo_eq (len : Nat) (s : State) :
    readFifo len s = .next ({ s with
      inF := { s.inF with bytes := s.inF.bytes.drop (min len s.inF.size) } }.emit
        (.returned (.bytes (s.inF.bytes.take (min len s.inF.size))))) := by
  have h : s.inF.pop (min len s.inF.size) =
      some (s.inF.bytes.take (min len s.inF.size), { s.inF with bytes := s.inF.bytes.drop (min len s.inF.size) }) := by
    rw [pop_eq_some]
    refine ⟨?_, rfl, rfl⟩
    unfold Fifo.size
    omega
  simp [readFifo, h]

theorem execWrite_eq_next {d : List Byte} {s t : State} :
    execWrite d s = .next t ↔ s.bpc = .idle ∧
      ((s.mode = .passthrough ∧
          t = (s.drewUartAccepted.emit (.delegated (.write d))).emit (.returned (.accepted s.uartAccepted))) ∨
       (s.mode ≠ .passthrough ∧ writeFifo d s = .next t)) := by
  unfold execWrite
  rw [whenAppFree_eq_next]
  refine and_congr_right fun _ => ?_
  cases hm : s.mode <;> simp [eq_comm]

theorem execRead_eq_next {len : Nat} {s t : State} :
    execRead len s = .next t ↔ s.bpc = .idle ∧
      ((s.mode = .passthrough ∧
          t = (s.drewUartBytes.emit (.delegated (.read len))).emit (.returned (.bytes s.uartBytes))) ∨
       (s.mode ≠ .passthrough ∧ readFifo len s = .next t)) := by
  unfold execRead
  rw [whenAppFree_eq_next]
  refine and_congr_right fun _ => ?_
  cases hm : s.mode <;> simp [eq_comm]

theorem execIsext_eq_next {s t : State} :
    execIsext s = .next t ↔ s.bpc = .idle ∧ t = s.emit (.returned (.bool (s.mode == .passthrough))) := by
  unfold execIsext
  rw [whenAppFree_eq_next]
  simp [eq_comm]

/-- TRYACQ completes in three ways: delegated, with the lock taken, with the lock not free (R140, R151). -/
theorem execTryacq_eq_next {s t : State} :
    execTryacq s = .next t ↔ s.bpc = .idle ∧
      ((s.mode = .passthrough ∧
          t = (s.drewUartAcquired.emit (.delegated .tryacq)).emit (.returned (.bool s.uartAcquired))) ∨
       (s.mode ≠ .passthrough ∧ s.lock = .free ∧ t = s.takeLock.emit (.returned (.bool true))) ∨
       (s.mode ≠ .passthrough ∧ s.lock ≠ .free ∧ t = s.emit (.returned (.bool false)))) := by
  unfold execTryacq
  rw [whenAppFree_eq_next]
  refine and_congr_right fun _ => ?_
  rcases tryLock_cases s with ⟨hl, hk⟩ | ⟨hl, hk⟩ <;> cases hm : s.mode <;>
    simp [tryAcquire, hk, hl, eq_comm]

/-- REL completes in two ways: delegated, and with the lock freed (R140, R152). -/
theorem execRel_eq_next {s t : State} :
    execRel s = .next t ↔ s.bpc = .idle ∧
      ((s.mode = .passthrough ∧ t = (s.emit (.delegated .rel)).emit (.returned .none)) ∨
       (s.mode ≠ .passthrough ∧ s.lock = .own ∧ s.tpc = .idle ∧
          t = { s with lock := .free }.emit (.returned .none))) := by
  unfold execRel
  rw [whenAppFree_eq_next]
  refine and_congr_right fun _ => ?_
  have hr : release s = .next t ↔ s.lock = .own ∧ s.tpc = .idle ∧
      t = { s with lock := .free }.emit (.returned .none) := by
    unfold release
    split_ifs with hc
    · simp [thenDo_eq_next, unlock_eq_next, hc, @eq_comm State t]
    · simp only [false_iff]
      tauto
  split <;> simp_all [@eq_comm State t]

/-- What a call of APP's does, all operations together: BEGIN's three ways, WRITE's two, READ's two, an answer that
changes nothing (ISEXT, TRYACQ on a lock that is not free), TRYACQ's other two, REL's two. -/
theorem call_cases {call : List Byte} {i : Instr} {s t : State} (hd : decodeCall call = .ok i) (hn : i ≠ .tick)
    (h : exec i s = .next t) : s.bpc = .idle ∧
    ((∃ b rx tx,
       (s.mode = .uninit ∧ s.extOk = true ∧ t = s.drewExtOk.beginPassThrough b rx tx) ∨
       (s.mode = .uninit ∧ s.extOk = false ∧ t = s.drewExtOk.beginPost b rx tx) ∨
       (s.mode = .passthrough ∧ t = (s.emit (.delegated (.begin b rx tx))).emit (.returned .none))) ∨
     (∃ d, i = .write d ∧
       ((s.mode = .passthrough ∧
           t = (s.drewUartAccepted.emit (.delegated (.write d))).emit (.returned (.accepted s.uartAccepted))) ∨
        (s.mode ≠ .passthrough ∧ t = ({ s with
          outF := { s.outF with bytes := s.outF.bytes ++ d.take (min d.length s.outF.free) } } : State).emit
            (.returned (.accepted (min d.length s.outF.free)))))) ∨
     (∃ len,
       (s.mode = .passthrough ∧
          t = (s.drewUartBytes.emit (.delegated (.read len))).emit (.returned (.bytes s.uartBytes))) ∨
       (s.mode ≠ .passthrough ∧ t = ({ s with
          inF := { s.inF with bytes := s.inF.bytes.drop (min len s.inF.size) } } : State).emit
            (.returned (.bytes (s.inF.bytes.take (min len s.inF.size)))))) ∨
     (∃ b, t = s.emit (.returned (.bool b))) ∨
     (s.mode = .passthrough ∧
        t = (s.drewUartAcquired.emit (.delegated .tryacq)).emit (.returned (.bool s.uartAcquired))) ∨
     (s.mode ≠ .passthrough ∧ s.lock = .free ∧ t = s.takeLock.emit (.returned (.bool true))) ∨
     (s.mode = .passthrough ∧ t = (s.emit (.delegated .rel)).emit (.returned .none)) ∨
     (i = .rel ∧ s.mode ≠ .passthrough ∧ s.lock = .own ∧ s.tpc = .idle ∧
        t = ({ s with lock := .free } : State).emit (.returned .none))) := by
  rcases decodeCall_cases hd with ⟨b, rx, tx, rfl⟩ | ⟨d, rfl⟩ | ⟨n, rfl⟩ | rfl | rfl | rfl | rfl | rfl
  · obtain ⟨h1, h2⟩ := execBegin_eq_next.mp h
    exact ⟨h1, .inl ⟨b, rx, tx, h2⟩⟩
  · obtain ⟨h1, h2⟩ := execWrite_eq_next.mp h
    rw [writeFifo_eq] at h2
    refine ⟨h1, .inr (.inl ⟨d, rfl, ?_⟩)⟩
    rcases h2 with h2 | ⟨h2, h3⟩
    · exact .inl h2
    · cases h3
      exact .inr ⟨h2, rfl⟩
  · obtain ⟨h1, h2⟩ := execRead_eq_next.mp h
    rw [readFifo_eq] at h2
    refine ⟨h1, .inr (.inr (.inl ⟨n, ?_⟩))⟩
    rcases h2 with h2 | ⟨h2, h3⟩
    · exact .inl h2
    · cases h3
      exact .inr ⟨h2, rfl⟩
  · obtain ⟨h1, h2⟩ := execIsext_eq_next.mp h
    exact ⟨h1, .inr (.inr (.inr (.inl ⟨_, h2⟩)))⟩
  · obtain ⟨h1, h2⟩ := execTryacq_eq_next.mp h
    rcases h2 with h2 | h2 | ⟨_, _, h2⟩
    · exact ⟨h1, .inr (.inr (.inr (.inr (.inl h2))))⟩
    · exact ⟨h1, .inr (.inr (.inr (.inr (.inr (.inl h2)))))⟩
    · exact ⟨h1, .inr (.inr (.inr (.inl ⟨_, h2⟩)))⟩
  · obtain ⟨h1, h2⟩ := execRel_eq_next.mp h
    rcases h2 with h2 | h2
    · exact ⟨h1, .inr (.inr (.inr (.inr (.inr (.inr (.inl h2))))))⟩
    · exact ⟨h1, .inr (.inr (.inr (.inr (.inr (.inr (.inr ⟨rfl, h2⟩))))))⟩
  · exact absurd rfl hn
  · simp [exec, execReserved7] at h

/-! ### The tick -/

/-- The entry step, row by row (R191). -/
theorem tickEntry_cases (s : State) :
    (s.tpc ≠ .idle ∧ s.tickEntry = s.emit (.event .tickOverlapped)) ∨
    (s.tpc = .idle ∧ s.mode = .passthrough ∧ s.tickEntry = s.emit (.delegated .tick)) ∨
    (s.tpc = .idle ∧ s.mode ≠ .passthrough ∧ s.pending = true ∧ s.lock = .free ∧
      s.tickEntry = s.takeLock.goto .cfgXfer) ∨
    (s.tpc = .idle ∧ s.mode ≠ .passthrough ∧ s.pending = true ∧ s.lock ≠ .free ∧
      s.tickEntry = s.emit (.event (.busLockUnavailable .handshake))) ∨
    (s.tpc = .idle ∧ s.mode = .uninit ∧ s.pending = false ∧ s.tickEntry = s.emit (.event .notInitialized)) ∨
    (s.tpc = .idle ∧ s.mode = .bridged ∧ s.pending = false ∧ s.gateClosed = true ∧
      s.tickEntry = s.emit (.event .rateGated)) ∨
    (s.tpc = .idle ∧ s.mode = .bridged ∧ s.pending = false ∧ s.gateClosed = false ∧ s.lock = .free ∧
      s.tickEntry = s.setBusy.takeLock.goto .budget) ∨
    (s.tpc = .idle ∧ s.mode = .bridged ∧ s.pending = false ∧ s.gateClosed = false ∧ s.lock ≠ .free ∧
      s.tickEntry = s.setBusy.clearBusy.emit (.event (.busLockUnavailable .exchange))) := by
  by_cases ht : s.tpc = .idle
  · rcases tryLock_cases s with ⟨hl, hk⟩ | ⟨hl, hk⟩ <;>
      rcases tryLock_cases s.setBusy with ⟨hl', hk'⟩ | ⟨hl', hk'⟩ <;> simp at hl' <;>
      cases hm : s.mode <;> cases hp : s.pending <;> cases hg : s.gateClosed <;>
      simp_all [State.tickEntry, State.enterHandshake, State.enterExchange]
  · simp [State.tickEntry, ht]

/-- The state after the inspection of what RXF holds (R188). -/
def State.inspected (s : State) (t : State) : Prop :=
  (∃ e : Event, t = (s.emit (.event e)).goto .finish) ∨
  (∃ m : Nat, m = min s.rxf.offset.toNat (min (s.inF.cap - s.inF.bytes.length) (2 * s.cfg.n)) ∧
    t = { s with
      inF := { s.inF with bytes := s.inF.bytes ++ (unpackBytes s.rxf.payload (2 * s.cfg.n)).take m }
      tpc := .finish
      trace := s.trace ++
        if m < s.rxf.offset.toNat then [.event (.inboundTruncated (s.rxf.offset.toNat - m))] else [] })

/-- A class row decodes to an instruction that is ignored whole where it is due (R118, R121). -/
theorem exec_decodeClass {c : Cfg} {f : Frame} {s : State} (h : s.frameDue = some (decodeClass c .rx f)) :
    exec (decodeClass c .rx f) s = .next s.ignoreFrame := by
  unfold decodeClass at h ⊢
  split_ifs at h ⊢ <;> exact whenDue_of_due (k := fun s => .next s.ignoreFrame) h

theorem ignoreFrame_inspected (s : State) : s.inspected s.ignoreFrame := by
  unfold State.ignoreFrame
  split_ifs <;> exact .inl ⟨_, rfl⟩

/-- The inspection completes whatever RXF holds (R121, R188). -/
theorem inspect_completes {s : State} (h : s.tpc = .inspect) :
    ∃ t, exec (decodeRx s.cfg s.rxf) s = .next t ∧ s.inspected t := by
  have hd : s.frameDue = some (decodeRx s.cfg s.rxf) := by simp [State.frameDue, h]
  unfold decodeRx at hd ⊢
  split_ifs at hd ⊢
  · simp only [exec, execDatarsp, whenDue_of_due hd]
    split_ifs
    · exact ⟨_, rfl, .inl ⟨_, rfl⟩⟩
    · have hp : ∀ m, m ≤ s.inF.cap - s.inF.bytes.length → ∀ v : List Byte,
          s.inF.push (v.take m) = some { s.inF with bytes := s.inF.bytes ++ v.take m } := by
        intro m hm v
        rw [push_eq_some]
        exact ⟨by rw [List.length_take]; omega, rfl⟩
      unfold inboundCopy
      rw [hp]
      · refine ⟨_, rfl, .inr ⟨_, rfl, ?_⟩⟩
        simp only [raiseIf_eq_withTrace, State.goto, parseRsp, rspToFrame, rspOf, inboundCount, Fifo.free,
          Cfg.payloadBytes]
        congr 3
        split_ifs <;> simp_all
      · unfold inboundCount Fifo.free
        omega
  · exact ⟨_, exec_decodeClass hd, ignoreFrame_inspected s⟩

/-- TICKER's turn, micro-step by micro-step (R174 to R190). -/
theorem tickerTurn_cases {s t : State} (h : tickerTurn s = .next t) :
    (s.tpc = .idle ∧ t = s) ∨
    (s.tpc = .cfgXfer ∧ s.lock = .own ∧ t = (s.afterXfer (buildCfgBaud s.cfg s.baud)).goto .cfgSettle) ∨
    (s.tpc = .cfgSettle ∧ t = s.goto .cfgDone) ∨
    (s.tpc = .cfgDone ∧ s.lock = .own ∧ t = { s with lock := .free, pending := false, tpc := .idle }) ∨
    (s.tpc = .budget ∧ t = { s with ntx := budget s.cfg s.outF.size s.baud, tpc := .wrXfer }) ∨
    (s.tpc = .wrXfer ∧ s.lock = .own ∧ s.ntx ≤ s.outF.bytes.length ∧ s.ntx ≤ s.cfg.payloadBytes ∧
      t = (({ s with outF := { s.outF with bytes := s.outF.bytes.drop s.ntx } } : State).afterXfer
        (buildDataWr s.cfg (s.outF.bytes.take s.ntx))).goto .wrSettle) ∨
    (s.tpc = .wrSettle ∧ t = s.goto .rdXfer) ∨
    (s.tpc = .rdXfer ∧ s.lock = .own ∧ t = (s.afterXfer (buildDataRd s.cfg)).goto .rdSettle) ∨
    (s.tpc = .rdSettle ∧ t = s.goto .unlock) ∨
    (s.tpc = .unlock ∧ s.lock = .own ∧ t = { s with lock := .free, tpc := .inspect }) ∨
    (s.tpc = .inspect ∧ s.inspected t) ∨
    (s.tpc = .finish ∧ t = { s with busy := false, lastTs := s.now, tpc := .idle }) := by
  unfold tickerTurn at h
  cases ht : s.tpc
  case inspect =>
    obtain ⟨u, hu, hi⟩ := inspect_completes ht
    have hd : s.frameDue = some (decodeRx s.cfg s.rxf) := by simp [State.frameDue, ht]
    simp only [hd, hu, Host.Outcome.next.injEq] at h
    simp [← h, hi]
  case cfgXfer =>
    have hd : s.frameDue = some (.cfgbaud s.baud) := by simp [State.frameDue, ht]
    simp only [hd, exec, execCfgbaud, whenDue_of_due hd, thenDo_eq_next, busXfer_eq_next] at h
    obtain ⟨u, ⟨hl, rfl⟩, h⟩ := h
    cases h
    simp [hl]
  case rdXfer =>
    have hd : s.frameDue = some .datard := by simp [State.frameDue, ht]
    simp only [hd, exec, execDatard, whenDue_of_due hd, thenDo_eq_next, busXfer_eq_next] at h
    obtain ⟨u, ⟨hl, rfl⟩, h⟩ := h
    cases h
    simp [hl]
  case wrXfer =>
    have hd : s.frameDue = some (.datawr (s.outF.bytes.take s.ntx)) := by simp [State.frameDue, ht]
    simp only [hd, exec, execDatawr, whenDue_of_due hd] at h
    split at h
    · cases h
    · next v f hp =>
      obtain ⟨hn, rfl, rfl⟩ := pop_eq_some.mp hp
      split_ifs at h with hc
      simp only [thenDo_eq_next, busXfer_eq_next] at h
      obtain ⟨u, ⟨hl, rfl⟩, h⟩ := h
      rw [List.length_take, Nat.min_eq_left hn] at hc
      cases h
      exact .inr (.inr (.inr (.inr (.inr (.inl ⟨rfl, hl, hn, hc, rfl⟩)))))
  case cfgDone =>
    simp only [State.frameDue, ht, microStep, cfgDone, thenDo_eq_next, unlock_eq_next] at h
    obtain ⟨u, ⟨hl, rfl⟩, h⟩ := h
    cases h
    simp [hl, ← ht, State.clearPending, State.goto]
  case unlock =>
    simp only [State.frameDue, ht, microStep, unlockStep, thenDo_eq_next, unlock_eq_next] at h
    obtain ⟨u, ⟨hl, rfl⟩, h⟩ := h
    cases h
    simp [hl, ← ht, State.goto]
  all_goals
    simp only [State.frameDue, ht, microStep, Host.Outcome.next.injEq] at h
    simp [← h, State.cfgSettle, State.wrSettle, State.rdSettle, State.takeBudget, State.finish, State.clearBusy,
      State.goto]

/-! ### The turn and the step -/

/-- APP's turn: it re-polls, completes BEGIN, has nothing to issue, or issues a call (R145, R154). -/
theorem appTurn_cases {s t : State} (h : appTurn s = .next t) :
    (s.bpc = .wait ∧ s.pending = true ∧ t = s) ∨
    (s.bpc = .wait ∧ s.pending = false ∧ t = s.beginComplete) ∨
    (s.bpc = .idle ∧ s.app = [] ∧ t = s) ∨
    (∃ call rest i, s.bpc = .idle ∧ s.app = call :: rest ∧ decodeCall call = .ok i ∧ i ≠ .tick ∧
      exec i { s with app := rest } = .next t) := by
  unfold appTurn appIssue at h
  cases hb : s.bpc
  · simp only [hb] at h
    split at h
    · next ha =>
      cases h
      exact .inr (.inr (.inl ⟨rfl, ha, rfl⟩))
    · next call rest ha =>
      split at h
      · next i hi =>
        split_ifs at h with hn
        exact .inr (.inr (.inr ⟨call, rest, i, rfl, ha, hi, hn, h⟩))
      · cases h
  · simp only [hb, Host.Outcome.next.injEq] at h
    cases hp : s.pending <;> simp [hp] at h <;> simp [← h]

/-- Everything a step can do: one agent's turn, on the state without that turn. -/
theorem step_cases {s t : State} (h : step s = .next t) :
    s.cfg.wf = true ∧ ∃ r : List Turn,
      (appTurn { s with sched := r } = .next t) ∨
      (t = State.tickEntry { s with sched := r }) ∨
      (tickerTurn { s with sched := r } = .next t) ∨
      (∃ us, t = { s with sched := r, clk := s.clk + us }) ∨
      (s.lock = .free ∧ t = { s with sched := r, lock := .other }) ∨
      (s.lock = .other ∧ t = { s with sched := r, lock := .free }) ∨
      (t = { s with sched := r }) := by
  unfold step at h
  split_ifs at h with hw
  refine ⟨hw, ?_⟩
  unfold scheduledStep at h
  split at h
  · next hs =>
    refine ⟨[], ?_⟩
    have he : s = { s with sched := [] } := by rw [← hs]
    unfold unscheduledTurn at h
    rw [← he]
    split_ifs at h
    · exact .inl h
    · exact .inr (.inr (.inl h))
  · next u r _ =>
    refine ⟨r, ?_⟩
    cases u
    · exact .inl h
    · simp only [takeTurn, exec, execTick, Host.Outcome.next.injEq] at h
      exact .inr (.inl h.symm)
    · exact .inr (.inr (.inl h))
    · simp only [takeTurn, State.advance, Host.Outcome.next.injEq] at h
      exact .inr (.inr (.inr (.inl ⟨_, h.symm⟩)))
    · simp only [takeTurn, Host.Outcome.next.injEq] at h
      rcases busTaken_cases { s with sched := r } with ⟨hl, he⟩ | ⟨_, he⟩ <;> simp_all
    · simp only [takeTurn, Host.Outcome.next.injEq] at h
      rcases busReleased_cases { s with sched := r } with ⟨hl, he⟩ | ⟨_, he⟩ <;> simp_all

/-- To show that every step leads to a state with P, show it of each kind of turn. -/
theorem step_elim {P : State → Prop} {s t : State} (h : step s = .next t)
    (stay : ∀ r, P { s with sched := r })
    (done : ∀ r, s.bpc = .wait → s.pending = false → P (State.beginComplete { s with sched := r }))
    (call : ∀ r call rest i, s.bpc = .idle → s.app = call :: rest → decodeCall call = .ok i → i ≠ .tick →
      ∀ t, exec i { s with sched := r, app := rest } = .next t → P t)
    (strobe : ∀ r, P (State.tickEntry { s with sched := r }))
    (micro : ∀ r t, tickerTurn { s with sched := r } = .next t → P t)
    (advance : ∀ r us, P { s with sched := r, clk := s.clk + us })
    (taken : ∀ r, s.lock = .free → P { s with sched := r, lock := .other })
    (released : ∀ r, s.lock = .other → P { s with sched := r, lock := .free }) : P t := by
  obtain ⟨-, r, h⟩ := step_cases h
  rcases h with h | rfl | h | ⟨us, rfl⟩ | ⟨hl, rfl⟩ | ⟨hl, rfl⟩ | rfl
  · rcases appTurn_cases h with ⟨_, _, rfl⟩ | ⟨h1, h2, rfl⟩ | ⟨_, _, rfl⟩ | ⟨c, rest, i, h1, h2, h3, h4, h5⟩
    · exact stay r
    · exact done r h1 h2
    · exact stay r
    · exact call r c rest i h1 h2 h3 h4 t h5
  · exact strobe r
  · exact micro r t h
  · exact advance r us
  · exact taken r hl
  · exact released r hl
  · exact stay r

end Sys2Proof.Machine
end

