-- ==== Sys2Proof/Tests/Slice0.lean ====
section
/-! SUPPORT. Tests: the well-formedness smoke, decoding of written-out words, the spec's vectors (95_test_vectors.md),
one step per test, and for each obligation with hypotheses a witness that meets them together. -/

namespace Sys2Proof.Tests

open Sys2Proof Sys2Proof.Machine

/-! ### Small states -/

/-- The reference configuration with N = 4, as the vectors marked so use it. -/
def small : Cfg := { Cfg.reference with n := 4 }

/-- V51: a response of three bytes, `4f 4b 0a`. -/
def v51 : List Byte :=
  [0x00, 0x00, 0x02, 0x00, 0x03, 0x00, 0x4F, 0x4B, 0x0A, 0x00, 0x00, 0x00, 0x00, 0x00, 0xE2, 0x77]

/-- V52: a response of eight bytes, `61 .. 68`. -/
def v52 : List Byte :=
  [0x00, 0x00, 0x02, 0x00, 0x08, 0x00, 0x61, 0x62, 0x63, 0x64, 0x65, 0x66, 0x67, 0x68, 0x14, 0x58]

/-- V55: V52 with its checksum wrong by one bit. -/
def v55 : List Byte :=
  [0x00, 0x00, 0x02, 0x00, 0x08, 0x00, 0x61, 0x62, 0x63, 0x64, 0x65, 0x66, 0x67, 0x68, 0x15, 0x58]

/-- After reset, with ENV's answers scripted. -/
def fresh (ext inn out : Bool) : State :=
  { State.resetWith small with
    draws := { Draws.unscripted with
      extOk := [ext], allocIn := [inn], allocOut := [out], rx := [v51, v51]
      uartAccepted := [2], uartBytes := [[7]], uartAcquired := [true] } }

/-- BRIDGED at 57600 baud with both buffers of 1024 bytes, and "Hi!" to send. -/
def bridged : State :=
  { fresh false true true with
    mode := .bridged, busHandle := true, baud := 57600, clk := 5000000, ntx := 3
    outF := { bytes := [0x48, 0x69, 0x21], cap := 1024 }, inF := { bytes := [0x55], cap := 1024 } }

/-- The same in the middle of an exchange. -/
def exchange (t : TickStep) : State :=
  { bridged with tpc := t, busy := true, lock := if t.holdsLock then .own else .free }

/-- APP inside BEGIN, the baud request posted, no tick in progress. -/
def waiting : State :=
  { fresh false true true with
    bpc := .wait, pending := true, busHandle := true, baud := 57600
    outF := { bytes := [], cap := 2048 }, inF := { bytes := [], cap := 2048 } }

/-- The same in the middle of the handshake. -/
def handshake (t : TickStep) : State := { waiting with tpc := t, lock := .own }

/-- PASSTHROUGH mode. -/
def through : State := { fresh true true true with mode := .passthrough }

/-- At `T_INSPECT` with these bytes received and this many bytes in IN, of capacity 1024. -/
def inspecting (rx : List Byte) (held : Nat) : State :=
  { exchange .inspect with
    rxf := decodeFrame 4 rx, inF := { bytes := List.replicate held 0xEE, cap := 1024 } }

/-- The frame instruction run where the sequencer stands. -/
def runDue (s : State) : Outcome :=
  match s.frameDue with
  | some i => exec i s
  | none => .next s

/-- The words of the frame that stands in TXF after an outcome. -/
def txWords (o : Outcome) : Option (List Word) := (nextOf o).map fun t => frameWords t.txf

/-- What the inbound side shows after an outcome: bytes held, and what was seen. -/
def inbound (o : Outcome) : Option (Nat × List Obs) := (nextOf o).map fun t => (t.inF.bytes.length, t.trace)

/-! ### Well-formedness: an ill-formed term for each check -/

theorem test_wf_refuses_long_datawr : (Instr.datawr (List.replicate 9 0)).wf small = false := by decide
theorem test_wf_accepts_full_datawr : (Instr.datawr (List.replicate 8 0)).wf small = true := by decide
theorem test_wf_refuses_short_response :
    (Instr.datarsp { cc := 0, cnt := 0, payload := [0, 0, 0], cksum := 0 }).wf small = false := by decide
theorem test_wf_refuses_short_class_frame :
    (Instr.rd { dir := .rx, count := 0, page := 3, offset := 0, payload := [0], cksum := 0 }).wf small = false := by decide
theorem test_wf_refuses_class_frame_on_data_page :
    (Instr.wr { dir := .rx, count := 0, page := 2, offset := 0, payload := [0, 0, 0, 0], cksum := 0 }).wf small = false ∧
    (Instr.bulk { dir := .rx, count := 0, page := 2, offset := 0, payload := [0, 0, 0, 0], cksum := 0 }).wf small = false ∧
    (Instr.k3 { dir := .rx, count := 0, page := 2, offset := 0, payload := [0, 0, 0, 0], cksum := 0 }).wf small = false := by
  decide
/-- In the transmit direction the header of a frame the block sends belongs to its own row, and to no class row. -/
theorem test_wf_refuses_sent_header_as_class_frame :
    (Instr.rd { dir := .tx, count := 0, page := 2, offset := 0, payload := [0, 0, 0, 0], cksum := 0 }).wf small = false ∧
    (Instr.wr { dir := .tx, count := 2, page := 1, offset := 0, payload := [0, 0, 0, 0], cksum := 0 }).wf small = false ∧
    (Instr.wr { dir := .tx, count := 4, page := 2, offset := 9, payload := [0, 0, 0, 0], cksum := 0 }).wf small = false ∧
    (Instr.k3 { dir := .tx, count := 4, page := 2, offset := 9, payload := [0, 0, 0, 0], cksum := 0 }).wf small = true := by
  decide
theorem test_cfg_ranges :
    Cfg.reference.wf = true ∧ ({ small with n := 1 }).wf = false ∧ ({ small with n := 16384 }).wf = false ∧
    ({ small with n := 16383 }).wf = true ∧ ({ small with pollUs := 0 }).wf = false ∧
    ({ small with pollUs := 1000001 }).wf = false ∧ ({ small with pageCfg := 2 }).wf = false ∧
    ({ small with kRead := 1 }).wf = false ∧ ({ small with kRead := 2 }).wf = false ∧
    ({ small with kWrite := 2 }).wf = false := by decide

/-! ### Decoding: a written-out word for every constructor (R114 to R119, R125) -/

theorem test_decode_cfgbaud :
    decode small (.tx [0x02, 0x40, 0x01, 0x00, 0x00, 0x00, 0x00, 0xC2, 0x01, 0x00, 0, 0, 0, 0, 0xD4, 0x1A]) =
      .ok (.cfgbaud 115200) := by decide +kernel
theorem test_decode_datawr :
    decode small (.tx [0x04, 0x40, 0x02, 0x00, 0x02, 0x00, 0x41, 0x42, 0, 0, 0, 0, 0, 0, 0x18, 0xB4]) =
      .ok (.datawr [0x41, 0x42]) := by decide +kernel
theorem test_decode_datard :
    decode small (.tx [0x00, 0x00, 0x02, 0x00, 0x00, 0x00, 0, 0, 0, 0, 0, 0, 0, 0, 0xC8, 0x9C]) = .ok .datard := by
  decide +kernel
theorem test_decode_datarsp :
    decode small (.rx [0x3F, 0xC0, 0x02, 0x00, 0xFF, 0xFF, 0x31, 0x32, 0x33, 0x34, 0x35, 0x36, 0x37, 0x38, 0x51, 0x20]) =
      .ok (.datarsp { cc := 0xC03F, cnt := 0xFFFF, payload := [0x3231, 0x3433, 0x3635, 0x3837], cksum := 0x2051 }) := by
  decide +kernel
theorem test_decode_rd :
    decode small (.rx [0x08, 0x00, 0x03, 0x00, 0x08, 0x00, 0x5A, 0x5A, 0x5A, 0x5A, 0x5A, 0x5A, 0x5A, 0x5A, 0x22, 0x1E]) =
      .ok (.rd { dir := .rx, count := 8, page := 3, offset := 8, payload := [0x5A5A, 0x5A5A, 0x5A5A, 0x5A5A], cksum := 0x1E22 }) := by
  decide +kernel
theorem test_decode_wr :
    decode small (.rx [0x02, 0x40, 0x01, 0x00, 0, 0, 0, 0, 0, 0, 0, 0, 0, 0, 0, 0]) =
      .ok (.wr { dir := .rx, count := 2, page := 1, offset := 0, payload := [0, 0, 0, 0], cksum := 0 }) := by decide +kernel
theorem test_decode_bulk :
    decode small (.rx [0x01, 0x80, 0x07, 0x00, 0x09, 0x00, 0, 0, 0, 0, 0, 0, 0, 0, 0x34, 0x12]) =
      .ok (.bulk { dir := .rx, count := 1, page := 7, offset := 9, payload := [0, 0, 0, 0], cksum := 0x1234 }) := by decide +kernel
theorem test_decode_k3 :
    decode small (.rx (List.replicate 16 0xFF)) =
      .ok (.k3 ⟨.rx, 0x3FFF, 0xFFFF, 0xFFFF, List.replicate 4 0xFFFF, 0xFFFF⟩) := by decide +kernel
/-- R131: after the specific rows a decoder tries the class rows, in the transmit direction too. -/
theorem test_decode_class_rows_transmit :
    decode small (.tx (List.replicate 16 0xFF)) =
      .ok (.k3 ⟨.tx, 0x3FFF, 0xFFFF, 0xFFFF, List.replicate 4 0xFFFF, 0xFFFF⟩) ∧
    decode small (.tx [0x01, 0x00, 0x02, 0x00, 0x00, 0x00, 0, 0, 0, 0, 0, 0, 0, 0, 0, 0]) =
      .ok (.rd ⟨.tx, 1, 2, 0, [0, 0, 0, 0], 0⟩) ∧
    decode small (.tx [0x02, 0x40, 0x02, 0x00, 0x00, 0x00, 0, 0, 0, 0, 0, 0, 0, 0, 0, 0]) =
      .ok (.wr ⟨.tx, 2, 2, 0, [0, 0, 0, 0], 0⟩) := by decide +kernel
theorem test_decode_begin :
    decodeCall [0x00, 0x00, 0xE1, 0x00, 0x00, 0x00, 0x80, 0x04] = .ok (.begin 57600 0 512) := by decide +kernel
theorem test_decode_write : decodeCall [0x01, 0x61, 0x62, 0x63] = .ok (.write [0x61, 0x62, 0x63]) := by decide
theorem test_decode_read : decodeCall [0x02, 0x10] = .ok (.read 16) ∧ decodeCall [0x02, 0xE8, 0x07] = .ok (.read 1000) := by
  decide
theorem test_decode_bare_calls :
    decodeCall [0x03] = .ok .isext ∧ decodeCall [0x04] = .ok .tryacq ∧ decodeCall [0x05] = .ok .rel ∧
    decodeCall [0x06] = .ok .tick ∧ decodeCall [0x07] = .ok .reserved7 := by decide
theorem test_decode_refusals :
    decodeCall [] = .error .emptyCall ∧ decodeCall [0x0B] = .error .highSelectBits ∧
    decodeCall [0x02, 0x80] = .error .truncatedOperands ∧ decodeCall [0x03, 0x00] = .error .trailingOperands ∧
    decode small (.rx [0x00]) = .error .frameLength ∧
    decode small (.tx [0x04, 0x40, 0x02, 0x00, 0x09, 0x00, 0, 0, 0, 0, 0, 0, 0, 0, 0, 0]) =
      .error .byteCountOverCapacity := by decide +kernel

/-- The frame rows' match and mask are the table's own. -/
theorem test_table_match_and_mask :
    rowCfgbaud Cfg.reference = { bits := 0x400200010000, mask := 0xFFFFFFFFFFFF } ∧
    rowDatawr Cfg.reference = { bits := 0x402000020000, mask := 0xFFFFFFFF0000 } ∧
    rowDatard Cfg.reference = { bits := 0x000000020000, mask := 0xFFFFFFFFFFFF } ∧
    rowDatarsp Cfg.reference = { bits := 0x000000020000, mask := 0x0000FFFF0000 } ∧
    rowClass Cfg.reference.kRead = { bits := 0x000000000000, mask := 0xC00000000000 } ∧
    rowClass Cfg.reference.kWrite = { bits := 0x400000000000, mask := 0xC00000000000 } ∧
    rowClass Cfg.reference.kBulk = { bits := 0x800000000000, mask := 0xC00000000000 } ∧
    rowClass Cfg.reference.kReserved = { bits := 0xC00000000000, mask := 0xC00000000000 } := by decide

/-- A class row of the table, and what decodes from it. -/
def classZero : ClassFrame := { dir := .rx, count := 0, page := 0, offset := 0, payload := List.replicate 32 0, cksum := 0 }

theorem test_table_words_decode :
    decodeTableWord 48 0x400200010000 = some (.cfgbaud 0) ∧ decodeTableWord 48 0x402000020000 = some (.datawr []) ∧
    decodeTableWord 48 0x000000020000 = some .datard ∧
    decodeTableWord 32 0x000000020000 =
      some (.datarsp { cc := 0, cnt := 0, payload := List.replicate 32 0, cksum := 0 }) ∧
    decodeTableWord 48 0x000000000000 = some (.rd classZero) ∧ decodeTableWord 48 0x400000000000 = some (.wr classZero) ∧
    decodeTableWord 48 0x800000000000 = some (.bulk classZero) ∧
    decodeTableWord 48 0xC00000000000 = some (.k3 classZero) ∧ decodeTableWord 8 0 = some (.begin 0 0 0) ∧
    decodeTableWord 8 1 = some (.write []) ∧ decodeTableWord 8 2 = some (.read 0) ∧
    decodeTableWord 8 7 = some .reserved7 := by decide +kernel

/-! ### The codec's functions -/

theorem test_checksum_catalogue :
    ckRef [] = 0xFFFF ∧ ckRef [0x00] = 0xE1F0 ∧ ckRef [0x41] = 0xB915 ∧
    ckRef [0x31, 0x32, 0x33, 0x34, 0x35, 0x36, 0x37, 0x38, 0x39] = 0x29B1 := by decide +kernel
theorem test_checksum_of_zero_frames :
    cksum Cfg.reference (Frame.zero 32) = 0x040E ∧ cksum small (Frame.zero 4) = 0x6A0A ∧
    cksum { small with n := 2 } (Frame.zero 2) = 0x84F9 := by decide +kernel
theorem test_datawr_at_two_words :
    frameWords (buildDataWr { small with n := 2 } [0x48, 0x69, 0x21]) =
      [0x4002, 0x0002, 0x0003, 0x6948, 0x0021, 0x4731] := by decide +kernel
theorem test_baud_word_order :
    frameWords (buildCfgBaud small 115200) = [0x4002, 0x0001, 0, 0xC200, 0x0001, 0, 0, 0x1AD4] := by decide +kernel
theorem test_pack_and_unpack :
    packBytes 4 [0x48, 0x69, 0x21] = [0x6948, 0x0021, 0, 0] ∧
    unpackBytes [0x4B4F, 0x000A, 0, 0] 3 = [0x4F, 0x4B, 0x0A] := by decide
theorem test_pacing_cap :
    pacingCap small 57600 = 57 ∧ pacingCap small 999 = 0 ∧ pacingCap small 0xFFFFFFFF = 4294967 ∧
    pacingCap { small with pollUs := 7000 } 57600 = 40 ∧ pacingCap { small with pollUs := 1 } 57600 = 0 := by decide
theorem test_budget :
    budget Cfg.reference 29 57600 = 29 ∧ budget Cfg.reference 200 115200 = 64 ∧ budget small 200 57600 = 8 ∧
    budget Cfg.reference 200 300 = 0 := by decide
theorem test_elapsed_across_the_wrap :
    elapsed 0x0000170F 0xFFFFF000 = 9999 ∧ elapsed 0x00001710 0xFFFFF000 = 10000 := by decide

/-! ### The frames the block sends -/

theorem test_cfgbaud_sends_V8 :
    txWords (exec (.cfgbaud 57600) (handshake .cfgXfer)) =
      some [0x4002, 0x0001, 0x0000, 0xE100, 0x0000, 0x0000, 0x0000, 0xD7BF] := by decide +kernel
theorem test_cfgbaud_needs_the_lock :
    exec (.cfgbaud 57600) { handshake .cfgXfer with lock := .other } = .fault .busNotOwned := rfl
theorem test_datawr_sends_V35 :
    txWords (exec (.datawr [0x48, 0x69, 0x21]) (exchange .wrXfer)) =
      some [0x4004, 0x0002, 0x0003, 0x6948, 0x0021, 0x0000, 0x0000, 0x0D9F] := by decide +kernel
theorem test_datawr_drains_out :
    (nextOf (exec (.datawr [0x48, 0x69, 0x21]) (exchange .wrXfer))).map (fun t => (t.outF.bytes, t.tpc)) =
      some ([], .wrSettle) := by decide +kernel
theorem test_datard_sends_V27 :
    txWords (exec .datard (exchange .rdXfer)) = some [0, 0x0002, 0, 0, 0, 0, 0, 0x9CC8] := by decide +kernel
theorem test_datard_receives_V51 :
    (nextOf (exec .datard (exchange .rdXfer))).map (fun t => frameWords t.rxf) =
      some [0, 0x0002, 0x0003, 0x4B4F, 0x000A, 0, 0, 0x77E2] := by decide +kernel

/-! ### The frames the block inspects -/

/-- V99, and V102: a frame of the reserved kind on PAGE_DATA is a response all the same, and its count is clamped. -/
theorem test_datarsp_truncates_V99_V102 :
    inbound (runDue (inspecting v52 1019)) = some (1024, [.event (.inboundTruncated 3)]) ∧
    inbound (runDue (inspecting
      [0x3F, 0xC0, 0x02, 0x00, 0xFF, 0xFF, 0x31, 0x32, 0x33, 0x34, 0x35, 0x36, 0x37, 0x38, 0x51, 0x20] 24)) =
      some (32, [.event (.inboundTruncated 65527)]) := by decide +kernel
theorem test_datarsp_bad_checksum_V104 :
    inbound (runDue { inspecting v55 0 with cfg := { small with rxCheck := true } }) =
      some (0, [.event .checksumMismatch]) ∧
    inbound (runDue (inspecting v55 32)) = some (40, []) := by decide +kernel
theorem test_rd_ignored_V101 :
    inbound (runDue (inspecting
      [0x08, 0x00, 0x03, 0x00, 0x08, 0x00, 0x5A, 0x5A, 0x5A, 0x5A, 0x5A, 0x5A, 0x5A, 0x5A, 0x22, 0x1E] 24)) =
      some (24, [.event .pageMismatch]) := by decide +kernel
theorem test_wr_ignored :
    inbound (runDue (inspecting [0x02, 0x40, 0x01, 0x00, 0, 0, 0, 0, 0, 0, 0, 0, 0, 0, 0, 0] 1)) =
      some (1, [.event .pageMismatch]) := by decide +kernel
theorem test_bulk_ignored :
    inbound (runDue (inspecting [0x02, 0x80, 0x01, 0x00, 8, 0, 0, 0, 0, 0, 0, 0, 0, 0, 0, 0] 1)) =
      some (1, [.event .pageMismatch]) := by decide +kernel
theorem test_k3_ignored : inbound (runDue (inspecting (List.replicate 16 0xFF) 1)) = some (1, [.event .pageMismatch]) := by
  decide +kernel
/-! ### The host operations -/

theorem test_begin_pass_through :
    (nextOf (exec (.begin 115200 4096 4096) (fresh true true true))).map
      (fun t => (t.mode, t.pending, t.outF.cap, t.bpc)) = some (.passthrough, false, 0, .idle) := by decide
theorem test_begin_posts :
    (nextOf (exec (.begin 57600 0 512) (fresh false true true))).map
      (fun t => (t.inF.cap, t.outF.cap, t.baud, t.bpc, t.trace)) =
      some (2048, 2048, 57600, .wait, [.event (.capacityClamped .rx), .event (.capacityClamped .tx)]) := by decide
theorem test_write_V48 :
    (nextOf (exec (.write [0, 1, 2, 3, 4, 5, 6, 7, 8, 9])
      { bridged with outF := { bytes := List.replicate 2040 0xAA, cap := 2048 } })).map
      (fun t => (t.outF.bytes.drop 2040, t.trace)) =
      some ([0, 1, 2, 3, 4, 5, 6, 7], [.returned (.accepted 8)]) := by decide +kernel
theorem test_write_at_reset_V47 :
    (nextOf (exec (.write [0x61, 0x62, 0x63]) State.reset)).map (fun t => (t.outF, t.trace)) =
      some (Fifo.unallocated, [.returned (.accepted 0)]) := by decide
theorem test_read_V58 :
    (nextOf (exec (.read 2) { bridged with inF := { bytes := [0x4F, 0x4B, 0x0A], cap := 1024 } })).map
      (fun t => (t.inF.bytes, t.trace)) = some ([0x0A], [.returned (.bytes [0x4F, 0x4B])]) := by decide
theorem test_read_past_the_end :
    (nextOf (exec (.read 16) bridged)).map (fun t => (t.inF.bytes, t.trace)) =
      some ([], [.returned (.bytes [0x55])]) := by decide
theorem test_isext_V67_V68 :
    (nextOf (exec .isext State.reset)).map (fun t => t.trace) = some [.returned (.bool false)] ∧
    (nextOf (exec .isext through)).map (fun t => t.trace) = some [.returned (.bool true)] := by decide
theorem test_tryacq_V69 :
    (nextOf (exec .tryacq bridged)).map (fun t => (t.lock, t.trace)) = some (.own, [.returned (.bool true)]) ∧
    (nextOf (exec .tryacq { bridged with lock := .other })).map (fun t => (t.lock, t.trace)) =
      some (.other, [.returned (.bool false)]) ∧
    (nextOf (exec .tryacq { bridged with lock := .own })).map (fun t => (t.lock, t.trace)) =
      some (.own, [.returned (.bool false)]) := by decide
/-- V69 from reset, and REL after it: BUS_HANDLE plays no part. -/
theorem test_tryacq_and_rel_from_reset :
    (nextOf (step (State.reset.withFetchWord 8 4))).map (fun t => (t.lock, t.trace)) =
      some (.own, [.returned (.bool true)]) ∧
    (nextOf (exec .rel { State.reset with lock := .own })).map (fun t => t.lock) = some .free := by decide
theorem test_rel_frees :
    (nextOf (exec .rel { bridged with lock := .own })).map (fun t => t.lock) = some .free := by decide
/-- R140: in PASSTHROUGH mode both are delegated whole and leave the lock as it is. -/
theorem test_tryacq_and_rel_delegated :
    (nextOf (exec .tryacq through)).map (fun t => (t.lock, t.trace)) =
      some (.free, [.delegated .tryacq, .returned (.bool true)]) ∧
    (nextOf (exec .rel { through with lock := .own })).map (fun t => (t.lock, t.trace)) =
      some (.own, [.delegated .rel, .returned .none]) := by decide
theorem test_tick_gate_V91_V92 :
    (nextOf (exec .tick { bridged with lastTs := 1000000, clk := 1009999 })).map (fun t => (t.tpc, t.trace)) =
      some (.idle, [.event .rateGated]) ∧
    (nextOf (exec .tick { bridged with lastTs := 1000000, clk := 1010000 })).map (fun t => (t.tpc, t.busy, t.lock)) =
      some (.budget, true, .own) := by decide
theorem test_tick_lock_refused :
    (nextOf (exec .tick { bridged with lock := .other })).map (fun t => (t.busy, t.lock, t.lastTs, t.trace)) =
      some (false, .other, 0, [.event (.busLockUnavailable .exchange)]) := by decide
theorem test_reserved7_refused : step (State.reset.withFetchWord 8 7) = .refused .reservedSelect := rfl

/-! ### The step -/

/-- R11: TICK is no call of APP's. -/
theorem test_step_refuses_tick_by_app : step { bridged with app := [[0x06]] } = .refused .tickByApp := rfl
theorem test_step_fetches_isext :
    (nextOf (step (State.reset.withFetchWord 8 3))).map (fun t => t.trace) = some [.returned (.bool false)] := by decide
theorem test_step_sends_datard :
    (nextOf (step (State.reset.withFetchWord 48 0x000000020000))).map (fun t => t.tpc) = some .rdSettle := by
  decide +kernel
/-- P1 line 4: BEGIN completes and the bridge is initialised. -/
theorem test_step_completes_begin :
    (nextOf (step { waiting with pending := false, sched := [.app] })).map (fun t => (t.mode, t.bpc)) =
      some (.bridged, .idle) := by decide

/-! ### Witnesses: the hypotheses of each obligation, met together -/

theorem witness_DecodeEncodeInverse :
    small.wf = true ∧ (Instr.datawr (List.replicate 8 1)).wf small = true ∧
    (Instr.k3 { dir := .rx, count := 1, page := 3, offset := 2, payload := [0, 0, 0, 0], cksum := 9 }).wf small = true := by decide
theorem witness_FrameCodecIsBijective : (Frame.zero 4).payload.length = 4 ∧ v51.length = 2 * (4 + 4) := by decide
theorem witness_EncodeIsLowByteFirst : 7 < (Frame.zero 4).payload.length + 4 := by decide
theorem witness_DecodeReadsLowByteFirst : v51.length = 2 * (4 + 4) ∧ 7 < 4 + 4 := by decide
theorem witness_PackUnpackInverse : [(1 : Byte), 2, 3].length ≤ 2 * 4 := by decide
theorem witness_ConstructorsLayOutFrames : small.wf = true ∧ (List.replicate 8 (1 : Byte)).length ≤ 2 * small.n := by decide
theorem witness_ClampRaisesBelow1024 : 1023 < 1024 ∧ clamp 1023 = 2048 ∧ 1024 ≤ 1024 ∧ clamp 1024 = 1024 := by decide
theorem witness_PacingCapTruncatesInOrder : small.wf = true ∧ small.pollUs = 10000 := by decide
theorem witness_PacingCapBounds :
    small.wf = true ∧ pacingCap small 999 = 0 ∧ (999 : Word32).toNat / 10 < 1000000 / small.pollUs ∧
    1000000 % small.pollUs = 0 := by decide
theorem witness_ElapsedTimeIsModular : 4294963200 ≤ 4294973200 ∧ 4294973200 - 4294963200 < 2 ^ 32 := by decide
theorem witness_WrittenOutWordsDecode : small = { Cfg.reference with n := 4 } := rfl
theorem witness_BeginPassThroughBranch :
    (fresh true true true).bpc = .idle ∧ (fresh true true true).mode = .uninit ∧ (fresh true true true).extOk = true := by
  decide
theorem witness_BeginPostsBaudRequest :
    (fresh false true true).bpc = .idle ∧ (fresh false true true).mode = .uninit ∧
    (fresh false true true).extOk = false := by decide
theorem witness_BeginOutsideUninit :
    (through.bpc = .idle ∧ through.mode = .passthrough) ∧ (bridged.bpc = .idle ∧ bridged.mode = .bridged) := by decide
theorem witness_BeginWaitsThenCompletes :
    ∃ s1 s2 s3 : State,
      (s1.cfg.wf = true ∧ s1.sched = [.app] ∧ s1.bpc = .wait ∧ s1.pending = true) ∧
      (s2.cfg.wf = true ∧ s2.sched = [.app] ∧ s2.bpc = .wait ∧ s2.pending = false ∧ s2.outF.cap ≠ 0 ∧ s2.inF.cap ≠ 0) ∧
      (s3.cfg.wf = true ∧ s3.sched = [.app] ∧ s3.bpc = .wait ∧ s3.pending = false ∧ s3.inF.cap = 0) :=
  ⟨{ waiting with sched := [.app] }, { waiting with sched := [.app], pending := false },
    { waiting with sched := [.app], pending := false, inF := Fifo.unallocated }, by decide⟩
theorem witness_BeginWaitsThenCompletes_wait :
    ∃ t : State, (handshake .cfgDone).bpc = .wait ∧ (handshake .cfgDone).pending = true ∧
      step (handshake .cfgDone) = .next t ∧ t.pending = false := ⟨_, rfl, rfl, rfl, rfl⟩
theorem witness_WriteAcceptsWhatFits : bridged.bpc = .idle ∧ bridged.mode ≠ .passthrough := by decide
theorem witness_ReadReturnsOldestBytes :
    (bridged.bpc = .idle ∧ bridged.mode ≠ .passthrough) ∧ (through.bpc = .idle ∧ through.mode = .passthrough) ∧
    (State.reset.bpc = .idle ∧ State.reset.mode = .uninit ∧ State.reset.Inv) := by decide
theorem witness_PassThroughDelegatesWriteAndRead : through.bpc = .idle ∧ through.mode = .passthrough := by decide
theorem witness_IsextReportsPassThrough :
    (through.bpc = .idle ∧ through.mode = .passthrough) ∧ (bridged.bpc = .idle ∧ bridged.mode ≠ .passthrough) := by decide
theorem witness_TryacqTakesOnlyAFreeLock :
    (bridged.bpc = .idle ∧ bridged.mode ≠ .passthrough ∧ bridged.lock = .free) ∧
    ({ bridged with lock := .other }.bpc = .idle ∧ { bridged with lock := .other }.mode ≠ .passthrough ∧
      { bridged with lock := .other }.lock ≠ .free) ∧
    (State.reset.bpc = .idle ∧ State.reset.mode ≠ .passthrough ∧ State.reset.lock = .free) ∧
    (through.bpc = .idle ∧ through.mode = .passthrough) := by decide
theorem witness_RelReleasesAppsLock :
    ({ bridged with lock := .own }.bpc = .idle ∧ { bridged with lock := .own }.mode ≠ .passthrough ∧
      { bridged with lock := .own }.lock = .own ∧
      { bridged with lock := .own }.tpc = .idle) ∧
    (bridged.bpc = .idle ∧ bridged.mode ≠ .passthrough ∧ bridged.lock ≠ .own) ∧
    ((exchange .budget).bpc = .idle ∧ (exchange .budget).mode ≠ .passthrough ∧ (exchange .budget).tpc ≠ .idle) ∧
    (through.bpc = .idle ∧ through.mode = .passthrough) := by decide
theorem witness_AppIsBlockedInsideBegin : waiting.bpc = .wait ∧ ∃ d, Instr.write [1] = Instr.write d := ⟨rfl, _, rfl⟩
theorem witness_TickEarlyReturns :
    (through.tpc = .idle ∧ through.mode = .passthrough) ∧
    (State.reset.tpc = .idle ∧ State.reset.mode = .uninit ∧ State.reset.pending = false) := by decide
theorem witness_CfgbaudSendsTheBaudFrame :
    (handshake .cfgXfer).tpc = .cfgXfer ∧ (handshake .cfgXfer).lock = .own ∧ (handshake .cfgXfer).baud = 57600 := by decide
theorem witness_DatawrSendsTheOldestBytes :
    (exchange .wrXfer).tpc = .wrXfer ∧ (exchange .wrXfer).lock = .own ∧
    [0x48, 0x69, 0x21] = (exchange .wrXfer).outF.bytes.take (exchange .wrXfer).ntx ∧
    (exchange .wrXfer).ntx ≤ (exchange .wrXfer).outF.bytes.length ∧
    (exchange .wrXfer).ntx ≤ 2 * (exchange .wrXfer).cfg.n := by decide
theorem witness_DatardSendsTheReadRequest : (exchange .rdXfer).tpc = .rdXfer ∧ (exchange .rdXfer).lock = .own := by decide
theorem witness_EveryDrawIsEnvsAnswerOrFree :
    (bridged.draws.rx[bridged.drawn.rx]? = some v51 ∧ v51.length = bridged.cfg.frameBytes ∧
      bridged.draws.extOk[bridged.drawn.extOk]? = some false ∧ bridged.draws.allocIn[bridged.drawn.alloc]? = some true ∧
      bridged.draws.allocOut[bridged.drawn.alloc]? = some true ∧
      bridged.draws.uartAccepted[bridged.drawn.uartAccepted]? = some 2 ∧
      bridged.draws.uartBytes[bridged.drawn.uartBytes]? = some [7] ∧
      bridged.draws.uartAcquired[bridged.drawn.uartAcquired]? = some true) ∧
    (State.reset.draws.rx[State.reset.drawn.rx]? = none ∧ 71 < State.reset.cfg.frameBytes ∧
      State.reset.draws.extOk[State.reset.drawn.extOk]? = none ∧
      State.reset.draws.allocIn[State.reset.drawn.alloc]? = none ∧
      State.reset.draws.allocOut[State.reset.drawn.alloc]? = none ∧
      State.reset.draws.uartAccepted[State.reset.drawn.uartAccepted]? = none ∧
      State.reset.draws.uartBytes[State.reset.drawn.uartBytes]? = none ∧
      State.reset.draws.uartAcquired[State.reset.drawn.uartAcquired]? = none) := by decide
theorem witness_BudgetIsTheLeastOfThree :
    ∃ s : State, s.cfg.wf = true ∧ s.sched = [.micro] ∧ s.tpc = .budget :=
  ⟨{ exchange .budget with sched := [.micro] }, by decide⟩
theorem witness_SettleStepsChangeNothing :
    ∀ t : TickStep, t = .cfgSettle ∨ t = .wrSettle ∨ t = .rdSettle →
      ∃ s : State, s.cfg.wf = true ∧ s.sched = [.micro] ∧ s.tpc = t := by
  intro t _
  exact ⟨{ exchange t with sched := [.micro] }, rfl, rfl, rfl⟩
theorem witness_LockIsReleasedAtTheEnd :
    (∃ s : State, s.cfg.wf = true ∧ s.sched = [.micro] ∧ s.lock = .own ∧ s.tpc = .cfgDone) ∧
    ∃ s : State, s.cfg.wf = true ∧ s.sched = [.micro] ∧ s.lock = .own ∧ s.tpc = .unlock :=
  ⟨⟨{ handshake .cfgDone with sched := [.micro] }, by decide⟩, ⟨{ exchange .unlock with sched := [.micro] }, by decide⟩⟩
theorem witness_FinishStampsTheClock : ∃ s : State, s.cfg.wf = true ∧ s.sched = [.micro] ∧ s.tpc = .finish :=
  ⟨{ exchange .finish with sched := [.micro] }, by decide⟩

/-- V52 as a response. -/
def r52 : RspFrame := { cc := 0, cnt := 8, payload := [0x6261, 0x6463, 0x6665, 0x6867], cksum := 0x5814 }

theorem witness_DatarspCopiesInbound :
    ((inspecting v52 1019).tpc = .inspect ∧ (inspecting v52 1019).rxf = rspToFrame small r52 ∧
      (inspecting v52 1019).cfg = small ∧ small.rxCheck = false) ∧
    ∃ s : State, s.tpc = .inspect ∧ s.rxf = rspToFrame s.cfg { r52 with cksum := 0x5815 } ∧ s.cfg.rxCheck = true ∧
      verify s.cfg s.rxf = false :=
  ⟨by decide +kernel, { inspecting v55 0 with cfg := { small with rxCheck := true } }, by decide +kernel⟩

/-- A frame on page 3 without its kind. -/
def other : ClassFrame := { dir := .rx, count := 5, page := 3, offset := 8, payload := [0, 0, 0, 0], cksum := 0 }

theorem witness_OtherFramesAreIgnoredWhole :
    ∀ kind : BitVec 2, ∃ s : State, s.cfg.wf = true ∧ s.tpc = .inspect ∧ other.dir = .rx ∧ other.page ≠ s.cfg.pageData ∧
      s.rxf = classToFrame kind other ∧ s.cfg.kRead = 0 ∧ s.cfg.kWrite = 1 ∧ s.cfg.kBulk = 2 := by
  intro kind
  exact ⟨{ exchange .inspect with rxf := classToFrame kind other }, rfl, rfl, rfl, (by decide : other.page ≠ small.pageData), rfl, rfl, rfl, rfl⟩
theorem witness_RawFramesCannotBeInjected :
    (∃ f, Instr.k3 other = Instr.k3 f) ∧ (exchange .inspect).frameDue ≠ some (.k3 other) ∧
    (handshake .cfgXfer).frameDue ≠ some (.cfgbaud 9600) ∧ (handshake .cfgXfer).frameDue = some (.cfgbaud 57600) ∧
    { other with dir := .tx }.dir = .tx := ⟨⟨_, rfl⟩, by decide, by decide, by decide, rfl⟩
theorem witness_NoReceivedFrameIsIllegal :
    ∃ s : State, s.cfg.wf = true ∧ s.sched = [.micro] ∧ s.tpc = .inspect ∧ s.cfg.rxCheck = false :=
  ⟨{ inspecting v52 0 with sched := [.micro] }, by decide⟩
theorem witness_StepRunsTheDecodedInstruction :
    ∃ s1 s2 s3 : State,
      (s1.cfg.wf = true ∧ s1.bpc = .idle ∧ s1.app = [[0x03]] ∧ decodeCall [0x03] = .ok .isext ∧ Instr.isext ≠ .tick ∧
        s1.sched = [.app]) ∧
      (s2.cfg.wf = true ∧ s2.sched = [.strobe]) ∧
      (s3.cfg.wf = true ∧ s3.frameDue = some .datard ∧ s3.sched = [.micro]) :=
  ⟨{ bridged with app := [[0x03]], sched := [.app] }, { bridged with sched := [.strobe] },
    { exchange .rdXfer with sched := [.micro] }, by decide⟩
theorem witness_StepRunsTheDecodedInstruction_unscheduled :
    (∃ s : State, s.cfg.wf = true ∧ s.bpc = .idle ∧ s.app = [[0x03]] ∧ s.sched = [] ∧ s.tpc = .idle) ∧
    ((exchange .rdXfer).frameDue = some .datard ∧ (exchange .rdXfer).sched = []) :=
  ⟨⟨{ bridged with app := [[0x03]] }, by decide⟩, by decide⟩
theorem witness_StepRefusesByName :
    (∃ s : State, s.cfg.wf = true ∧ s.sched = [.app] ∧ s.bpc = .idle ∧ s.app = [[0x0B]] ∧
      decodeCall [0x0B] = .error .highSelectBits) ∧
    (∃ s : State, s.cfg.wf = true ∧ s.sched = [.app] ∧ s.bpc = .idle ∧ s.app = [[0x06]] ∧
      decodeCall [0x06] = .ok .tick) ∧ { bridged with cfg := { small with n := 1 } }.cfg.wf = false :=
  ⟨⟨{ bridged with app := [[0x0B]], sched := [.app] }, by decide⟩,
    ⟨{ bridged with app := [[0x06]], sched := [.app] }, by decide⟩, by decide⟩
theorem witness_EnvMovesClockAndFreeLockOnly :
    ∀ t : Turn, ∃ s : State, s.cfg.wf = true ∧ s.sched = [t] := fun t =>
  ⟨{ bridged with sched := [t] }, rfl, rfl⟩
theorem witness_InvHoldsAtReset : small.wf = true := by decide
/-- The small states have the invariant, in the middle of an exchange and of a handshake too. -/
theorem witness_Inv :
    bridged.Inv ∧ waiting.Inv ∧ through.Inv ∧ (exchange .wrXfer).Inv ∧ (handshake .cfgXfer).Inv ∧
    (exchange .inspect).Inv ∧ (exchange .finish).Inv :=
  ⟨by decide, by decide, by decide, by decide, by decide, by decide, by decide⟩
theorem witness_EveryStepKeepsInv : ∃ t : State, (exchange .rdXfer).Inv ∧ step (exchange .rdXfer) = .next t :=
  ⟨_, by decide, rfl⟩
theorem witness_NoStepFaultsUnderInv : (exchange .wrXfer).Inv := by decide
theorem witness_EveryTickReturns : bridged.Inv ∧ bridged.tpc = .idle := by decide
theorem witness_OneTickServesTheBaudRequest :
    waiting.Inv ∧ waiting.tpc = .idle ∧ waiting.pending = true ∧ waiting.lock = .free := by decide
theorem witness_ExchangeMovesTheBudget :
    bridged.Inv ∧ bridged.tpc = .idle ∧ bridged.pending = false ∧ bridged.mode = .bridged ∧ bridged.lock = .free ∧
    bridged.cfg.pollUs ≤ elapsed bridged.now bridged.lastTs := by decide
theorem witness_NoStepWritesTheParameters : ∃ t : State, step (exchange .unlock) = .next t := ⟨_, rfl⟩
theorem witness_ModeIsSetOnce :
    (∃ s t : State, s.Inv ∧ step s = .next t ∧ t.mode ≠ s.mode ∧ t.mode = .bridged) ∧
    ∃ s t : State, s.Inv ∧ step s = .next t ∧ t.mode ≠ s.mode ∧ t.mode = .passthrough :=
  ⟨⟨{ waiting with pending := false }, _, by decide, rfl, by decide, rfl⟩,
    ⟨{ fresh true true true with app := [[0, 0, 0xE1, 0, 0, 0, 0]] }, _, by decide, rfl, by decide, rfl⟩⟩
theorem witness_PendingHasTwoWriters :
    (∃ s t : State, step s = .next t ∧ s.pending = false ∧ t.pending = true) ∧
    ∃ s t : State, step s = .next t ∧ s.pending = true ∧ t.pending = false :=
  ⟨⟨{ fresh false true true with app := [[0, 0, 0xE1, 0, 0, 0, 0]] }, _, rfl, rfl, rfl⟩,
    ⟨handshake .cfgDone, _, rfl, rfl, rfl⟩⟩
theorem witness_TimestampAndGuardWriters :
    (∃ s t : State, s.Inv ∧ step s = .next t ∧ t.lastTs ≠ s.lastTs ∧ s.busy = true ∧ t.busy = false) ∧
    ∃ s t : State, s.Inv ∧ step s = .next t ∧ s.busy = false ∧ t.busy = true :=
  ⟨⟨exchange .finish, _, by decide, rfl, by decide, rfl, rfl⟩,
    ⟨{ bridged with sched := [.strobe] }, _, by decide, rfl, rfl, rfl⟩⟩
theorem witness_OnlyReleasesGiveUpTheLock :
    (∃ t : State, (exchange .unlock).Inv ∧ step (exchange .unlock) = .next t ∧ (exchange .unlock).lock = .own ∧
      t.lock ≠ .own) ∧
    (∃ s t : State, step s = .next t ∧ s.lock = .own ∧ t.lock ≠ .own ∧ s.tpc = .idle) ∧
    ∃ s t : State, s.Inv ∧ step s = .next t ∧ .event (.busLockUnavailable .exchange) ∈ newObs s t :=
  ⟨⟨_, by decide, rfl, rfl, by decide⟩, ⟨{ bridged with lock := .own, app := [[0x05]] }, _, rfl, rfl, by decide, rfl⟩,
    ⟨{ bridged with lock := .other, sched := [.strobe] }, _, by decide, rfl, List.mem_cons_self⟩⟩
theorem witness_SentFramesAreSealedAndLocked :
    ∃ t : State, step (exchange .rdXfer) = .next t ∧ .sent (buildDataRd small) ∈ newObs (exchange .rdXfer) t :=
  ⟨_, rfl, List.mem_cons_self⟩
theorem witness_FrameFilesChangeOnlyOnTheBus :
    ∃ t : State, step (exchange .rdXfer) = .next t ∧ t.txf ≠ (exchange .rdXfer).txf := ⟨_, rfl, by decide +kernel⟩
theorem witness_FifosKeepOrderAndBytes : ∃ t : State, (exchange .wrXfer).Inv ∧ step (exchange .wrXfer) = .next t :=
  ⟨_, by decide, rfl⟩
theorem witness_PassThroughFreezesTheBlock :
    ∃ s t : State, s.Inv ∧ s.mode = .passthrough ∧ step s = .next t ∧ t.trace ≠ s.trace :=
  ⟨{ through with app := [[0x01, 0x61]] }, _, by decide, rfl, rfl, by decide⟩
theorem witness_WriteAfterTheBudgetKeepsTheFrame : (exchange .wrXfer).Inv ∧ (exchange .wrXfer).tpc = .wrXfer := by decide

end Sys2Proof.Tests
end

section
/-! SUPPORT. The draws, clause by clause (R16, R56, R57, R80, R153), and the statement that every draw is ENV's answer
where one is given and free beyond it. -/

namespace Sys2Proof.Machine

/-! ### A draw: the next scripted answer, or a free value -/

/-- The next answer of a kind is given: it is what is drawn, whatever the free value is. -/
theorem getD_of_answered {α : Type} {answers : List α} {k : Nat} {a : α} (free : α) (h : answers[k]? = some a) :
    answers.getD k free = a := by
  rw [List.getD_eq_getElem?_getD, h, Option.getD_some]

/-- No further answer of a kind is given: the free value is what is drawn. -/
theorem getD_of_unanswered {α : Type} {answers : List α} {k : Nat} (free : α) (h : answers[k]? = none) :
    answers.getD k free = free := by
  rw [List.getD_eq_getElem?_getD, h, Option.getD_none]

/-! ### The received frame (R80) -/

/-- Byte k of a received frame: byte k of the given frame, or a free value where that has none. -/
theorem rxBytes_getElem? {s : State} {k : Nat} (h : k < s.cfg.frameBytes) :
    s.rxBytes[k]? = some ((s.draws.rx.getD s.drawn.rx []).getD k (Config.freeRxByte s.drawn.rx k)) := by
  simp [State.rxBytes, h]

/-- A given frame that is whole is received as it is. -/
theorem rxBytes_of_whole {s : State} {b : List Byte} (h : s.draws.rx[s.drawn.rx]? = some b)
    (hb : b.length = s.cfg.frameBytes) : s.rxBytes = b := by
  refine List.ext_getElem? fun k => ?_
  by_cases hk : k < b.length
  · have hbyte : b[k]? = some b[k] := List.getElem?_eq_getElem hk
    rw [rxBytes_getElem? (hb ▸ hk), getD_of_answered [] h, getD_of_answered _ hbyte, hbyte]
  · have hlen : s.rxBytes.length = b.length := (rxBytes_length s).trans hb.symm
    rw [List.getElem?_eq_none (by omega), List.getElem?_eq_none (by omega)]

/-- Where no frame is given, every byte received is free. -/
theorem rxBytes_of_unanswered {s : State} {k : Nat} (h : s.draws.rx[s.drawn.rx]? = none) (hk : k < s.cfg.frameBytes) :
    s.rxBytes[k]? = some (Config.freeRxByte s.drawn.rx k) := by
  rw [rxBytes_getElem? hk, getD_of_unanswered [] h, List.getD_nil]

/-- Settles O31: each draw but the received frame is one lookup, answered or not; the received frame is such a lookup
byte by byte, and a draw moves its own counter only. -/
theorem everyDrawIsEnvsAnswerOrFree : Obligations.EveryDrawIsEnvsAnswerOrFree := by
  intro s
  exact ⟨fun _ => getD_of_answered _, getD_of_unanswered _,
    fun _ => getD_of_answered _, getD_of_unanswered _,
    fun _ => getD_of_answered _, getD_of_unanswered _,
    fun _ => rxBytes_of_whole, fun _ => rxBytes_of_unanswered, rxBytes_length s,
    fun _ => getD_of_answered _, getD_of_unanswered _,
    fun _ => getD_of_answered _, getD_of_unanswered _,
    fun _ => getD_of_answered _, getD_of_unanswered _,
    s.drewExtOk_eq, s.drewAllocs_eq, s.drewRx_eq,
    s.drewUartAccepted_eq, s.drewUartBytes_eq, s.drewUartAcquired_eq⟩

end Sys2Proof.Machine
end

section
/-! SUPPORT. What the step does with its configuration and its next turn, in the forward direction, and the three
stops by name. -/

namespace Sys2Proof.Machine

/-! ### The step under a configuration and a schedule -/

/-- A configuration outside its ranges is refused whatever is scheduled (R10, U6). -/
theorem step_of_cfg_out_of_range {s : State} (h : s.cfg.wf = false) : step s = .refused .cfgOutOfRange := by
  simp [step, h]

/-- Under a configuration in range the step takes the next scheduled turn (R12). -/
theorem step_of_scheduled {s : State} {t : Turn} {ts : List Turn} (hwf : s.cfg.wf = true) (hs : s.sched = t :: ts) :
    step s = takeTurn t { s with sched := ts } := by
  simp [step, hwf, scheduledStep, hs]

/-! ### APP's turn -/

/-- Outside BEGIN, APP's turn issues its next operation (R154). -/
theorem appTurn_of_idle {s : State} (h : s.bpc = .idle) : appTurn s = appIssue s := by
  simp [appTurn, h]

/-- A call whose bytes decode to nothing is refused, with the reason (log entry 16). -/
theorem appIssue_of_undecodable {s : State} {call : List Byte} {rest : List (List Byte)} {e : Reject}
    (ha : s.app = call :: rest) (hd : decodeCall call = .error e) : appIssue s = .refused (.undecodable e) := by
  simp [appIssue, ha, hd]

/-- A TICK call by APP is refused (R11, U19, log entry 23). -/
theorem appIssue_of_tick {s : State} {call : List Byte} {rest : List (List Byte)}
    (ha : s.app = call :: rest) (hd : decodeCall call = .ok .tick) : appIssue s = .refused .tickByApp := by
  simp [appIssue, ha, hd]

/-- A scheduled turn of APP, outside BEGIN, issues its next operation. -/
theorem step_of_app_scheduled {s : State} {ts : List Turn} (hwf : s.cfg.wf = true) (hs : s.sched = .app :: ts)
    (hb : s.bpc = .idle) : step s = appIssue { s with sched := ts } :=
  calc step s
    _ = appTurn { s with sched := ts } := step_of_scheduled hwf hs
    _ = appIssue { s with sched := ts } := appTurn_of_idle hb

/-- Settles O41: under a configuration in range a scheduled APP turn reaches the decoding of the call, which stops by
name on both kinds of call; a configuration out of range stops before that. -/
theorem stepRefusesByName : Obligations.StepRefusesByName := by
  refine ⟨fun s ts call rest hwf hs hb ha => ?_, fun s => step_of_cfg_out_of_range⟩
  rw [step_of_app_scheduled hwf hs hb]
  exact ⟨fun e => appIssue_of_undecodable ha, appIssue_of_tick ha⟩

end Sys2Proof.Machine
end

section
/-! SUPPORT. The invariant of R59, update by update: what each change of the state needs in order to keep it, and that
it holds after reset. -/

namespace Sys2Proof.Machine

/-! ### Reset -/

/-- Under a configuration in range the state after reset has the invariant (R58, R59). -/
theorem resetWith_inv {c : Cfg} (h : c.wf = true) : (State.resetWith c).Inv := by
  have hfile : (Frame.zero c.n).payload.length = c.n := List.length_replicate
  exact ⟨h, nofun, rfl, ⟨nofun, nofun, nofun⟩, nofun, ⟨rfl, rfl⟩, nofun, ⟨nofun, nofun⟩, nofun, nofun, fun _ => rfl,
    hfile, hfile⟩

/-- Settles O43: every value of R58's table is a field of the state after reset as it is written. -/
theorem resetLeavesTheBlockUninitialised : Obligations.ResetLeavesTheBlockUninitialised := by
  intro c
  have hlock : (State.resetWith c).lock ≠ .own := by simp [State.resetWith]
  exact ⟨State.resetWith c, rfl, rfl, rfl, rfl, rfl, rfl, rfl, rfl, rfl, rfl, rfl, rfl, rfl, hlock⟩

/-- Settles O44: the reference configuration is in range, so its reset state is one of those of the general lemma. -/
theorem invHoldsAtReset : Obligations.InvHoldsAtReset :=
  ⟨resetWith_inv (by decide), fun _ => resetWith_inv⟩

/-! ### The sequencer's moves -/

/-- A move of the sequencer and of the lock keeps the invariant where the new step is of the same part of the tick, and
has the lock and the handle if it needs them. -/
theorem inv_withTpcLock {s : State} (hi : s.Inv) {x y : TickStep} {l : Lock} (ht : s.tpc = x)
    (hlock : y.holdsLock = true → l = .own ∧ s.busHandle = true) (hexch : x.inExchange = y.inExchange)
    (hhand : y.inHandshake = true → x.inHandshake = true) (hwr : y = .wrXfer → x = .wrXfer) :
    ({ s with tpc := y, lock := l } : State).Inv := by
  subst ht
  obtain ⟨hwf, -, hbusy, ⟨hwaitHandle, hbridgeHandle, -⟩, hbuf, hfit, hwait, ⟨hpend, hpost⟩, hbridged, hbudget, hempty,
    hfiles⟩ := hi
  exact ⟨hwf, fun h => (hlock h).1, hbusy.trans hexch, ⟨hwaitHandle, hbridgeHandle, fun h => (hlock h).2⟩, hbuf,
    hfit, hwait, ⟨fun h => hpend (hhand h), hpost⟩, fun h => hbridged (hexch.trans h), fun h => hbudget (hwr h),
    hempty, hfiles⟩

/-- A change of the lock keeps the invariant where the tick does not hold it. -/
theorem inv_withLock {s : State} (hi : s.Inv) (l : Lock) (h : s.tpc.holdsLock = false) :
    ({ s with lock := l } : State).Inv :=
  inv_withTpcLock hi rfl (by simp [h]) rfl id id

/-- The tick does not hold a lock that is not OWN. -/
theorem not_holdsLock_of_not_own {s : State} (hi : s.Inv) (h : s.lock ≠ .own) : s.tpc.holdsLock = false := by
  obtain ⟨-, hlock, -⟩ := hi
  exact Bool.eq_false_of_not_eq_true fun hh => h (hlock hh)

/-- While the tick holds the lock, `LOCK = OWN` and the bus handle is held. -/
theorem own_handle_of_holdsLock {s : State} (hi : s.Inv) (h : s.tpc.holdsLock = true) :
    s.lock = .own ∧ s.busHandle = true := by
  obtain ⟨-, hlock, -, ⟨-, -, hhandle⟩, -⟩ := hi
  exact ⟨hlock h, hhandle h⟩

/-- A move inside the part of a tick that holds the lock keeps the invariant, save to the step that reads NTX. -/
theorem inv_goto {s : State} (hi : s.Inv) {x y : TickStep} (ht : s.tpc = x) (hlock : x.holdsLock = true)
    (hexch : x.inExchange = y.inExchange) (hhand : x.inHandshake = y.inHandshake) (hwr : y ≠ .wrXfer) :
    (s.goto y).Inv :=
  inv_withTpcLock hi ht (fun _ => own_handle_of_holdsLock hi (ht ▸ hlock)) hexch hhand.trans (absurd · hwr)

/-- The entry into the handshake (R173) keeps the invariant: the pending request has BEGIN waiting, with the handle. -/
theorem inv_enterHandshake {s : State} (hi : s.Inv) (ht : s.tpc = .idle) (hp : s.pending = true) :
    (s.takeLock.goto .cfgXfer).Inv := by
  obtain ⟨hwf, -, hbusy, ⟨hwaitHandle, hbridgeHandle, -⟩, hbuf, hfit, hwait, ⟨-, hpost⟩, -, -, hempty, hfiles⟩ := hi
  exact ⟨hwf, fun _ => rfl, hbusy.trans (by rw [ht]; rfl),
    ⟨hwaitHandle, hbridgeHandle, fun _ => hwaitHandle (hpost hp)⟩, hbuf, hfit, hwait, ⟨fun _ => hp, hpost⟩,
    nofun, nofun, hempty, hfiles⟩

/-- The entry into the exchange (R179) keeps the invariant: BRIDGED mode has the handle. -/
theorem inv_enterExchange {s : State} (hi : s.Inv) (hm : s.mode = .bridged) :
    (s.setBusy.takeLock.goto .budget).Inv := by
  obtain ⟨hwf, -, -, ⟨hwaitHandle, hbridgeHandle, -⟩, hbuf, hfit, hwait, ⟨-, hpost⟩, -, -, hempty, hfiles⟩ := hi
  exact ⟨hwf, fun _ => rfl, rfl, ⟨hwaitHandle, hbridgeHandle, fun _ => hbridgeHandle hm⟩, hbuf, hfit, hwait,
    ⟨nofun, hpost⟩, fun _ => hm, nofun, hempty, hfiles⟩

/-- Outside an exchange BUSY is 0, so clearing it changes nothing that the invariant speaks of (R179). -/
theorem inv_clearBusy {s : State} (hi : s.Inv) (ht : s.tpc = .idle) : s.setBusy.clearBusy.Inv := by
  obtain ⟨hwf, hlock, -, hrest⟩ := hi
  have hidle : s.setBusy.clearBusy.busyInExchange := by simp [State.busyInExchange, ht, TickStep.inExchange]
  exact ⟨hwf, hlock, hidle, hrest⟩

/-- The end of the handshake (R176) keeps the invariant: lock and request are given up together. -/
theorem inv_endHandshake {s : State} (hi : s.Inv) (ht : s.tpc = .cfgDone) :
    ({ s with lock := .free, pending := false, tpc := .idle } : State).Inv := by
  obtain ⟨hwf, -, hbusy, ⟨hwaitHandle, hbridgeHandle, -⟩, hbuf, hfit, hwait, -, -, -, hempty, hfiles⟩ := hi
  exact ⟨hwf, nofun, hbusy.trans (by rw [ht]; rfl), ⟨hwaitHandle, hbridgeHandle, nofun⟩, hbuf, hfit, hwait,
    ⟨nofun, nofun⟩, nofun, nofun, hempty, hfiles⟩

/-- The budget (R180) is at most what OUT holds and what a frame carries. -/
theorem budget_le (c : Cfg) (available : Nat) (b : Word32) :
    budget c available b ≤ available ∧ budget c available b ≤ c.payloadBytes := by
  unfold budget
  omega

/-- `T_BUDGET` keeps the invariant: NTX is within both bounds of the transfer step it leads to (R193, R196). -/
theorem inv_takeBudget {s : State} (hi : s.Inv) (ht : s.tpc = .budget) :
    ({ s with ntx := budget s.cfg s.outF.size s.baud, tpc := .wrXfer } : State).Inv := by
  have ⟨hown, hhandle⟩ := own_handle_of_holdsLock hi (by rw [ht]; rfl)
  obtain ⟨hwf, -, hbusy, ⟨hwaitHandle, hbridgeHandle, -⟩, hbuf, hfit, hwait, ⟨-, hpost⟩, hbridged, -, hempty, hfiles⟩ :=
    hi
  exact ⟨hwf, fun _ => hown, hbusy.trans (by rw [ht]; rfl), ⟨hwaitHandle, hbridgeHandle, fun _ => hhandle⟩, hbuf, hfit,
    hwait, ⟨nofun, hpost⟩, fun _ => hbridged (by rw [ht]; rfl), fun _ => budget_le .., hempty, hfiles⟩

/-- `T_FINISH` keeps the invariant: BUSY is cleared as the exchange ends (R190). -/
theorem inv_finish {s : State} (hi : s.Inv) (l : Word32) :
    ({ s with busy := false, lastTs := l, tpc := .idle } : State).Inv := by
  obtain ⟨hwf, -, -, ⟨hwaitHandle, hbridgeHandle, -⟩, hbuf, hfit, hwait, ⟨-, hpost⟩, -, -, hempty, hfiles⟩ := hi
  exact ⟨hwf, nofun, rfl, ⟨hwaitHandle, hbridgeHandle, nofun⟩, hbuf, hfit, hwait, ⟨nofun, hpost⟩, nofun, nofun, hempty,
    hfiles⟩

/-! ### The FIFOs and the frame files -/

/-- A change of OUT keeps the invariant where its capacity stays, its bytes fit, and it keeps the budgeted bytes. -/
theorem inv_withOutF {s : State} (hi : s.Inv) {f : Fifo} (hcap : f.cap = s.outF.cap) (hf : f.wf = true)
    (hn : s.tpc = .wrXfer → s.ntx ≤ f.size) : ({ s with outF := f } : State).Inv := by
  obtain ⟨hwf, hlock, hbusy, hhandle, hbuf, ⟨-, hin⟩, hwait, hpend, hbridged, hbudget, hrest⟩ := hi
  exact ⟨hwf, hlock, hbusy, hhandle, fun h => hcap ▸ hbuf h, ⟨hf, hin⟩, hwait, hpend, hbridged,
    fun h => ⟨hn h, (hbudget h).2⟩, hrest⟩

/-- A change of IN keeps the invariant where its capacity stays, its bytes fit, and outside BRIDGED mode it has none. -/
theorem inv_withInF {s : State} (hi : s.Inv) {f : Fifo} (hcap : f.cap = s.inF.cap) (hf : f.wf = true)
    (he : s.mode ≠ .bridged → f.bytes = []) : ({ s with inF := f } : State).Inv := by
  obtain ⟨hwf, hlock, hbusy, hhandle, hbuf, ⟨hout, -⟩, hwait, hpend, hbridged, hbudget, -, hfiles⟩ := hi
  exact ⟨hwf, hlock, hbusy, hhandle, fun h => hcap ▸ hbuf h, ⟨hout, hf⟩, hwait, hpend, hbridged, hbudget, he, hfiles⟩

/-- A bus transaction keeps the invariant: both frame files get N payload words (R78, R80). -/
theorem inv_afterXfer {s : State} (hi : s.Inv) {f : Frame} (hf : f.payload.length = s.cfg.n) : (s.afterXfer f).Inv := by
  obtain ⟨hwf, hlock, hbusy, hhandle, hbuf, hfit, hwait, hpend, hbridged, hbudget, hempty, -⟩ := hi
  exact ⟨hwf, hlock, hbusy, hhandle, hbuf, hfit, hwait, hpend, hbridged, hbudget, hempty,
    hf, decodeFrame_payload_length (rxBytes_length s)⟩

/-! ### BEGIN -/

/-- In UNINIT mode no exchange runs. -/
theorem not_inExchange_of_uninit {s : State} (hi : s.Inv) (hm : s.mode = .uninit) : s.tpc.inExchange = false := by
  obtain ⟨-, -, -, -, -, -, -, -, hbridged, -⟩ := hi
  exact Bool.eq_false_of_not_eq_true fun h => nomatch hm.symm.trans (hbridged h)

/-- In UNINIT mode the tick is not at the step that reads NTX. -/
theorem not_wrXfer_of_uninit {s : State} (hi : s.Inv) (hm : s.mode = .uninit) : s.tpc ≠ .wrXfer := by
  intro h
  have := not_inExchange_of_uninit hi hm
  rw [h] at this
  cases this

/-- BEGIN's pass-through branch (R142) keeps the invariant. -/
theorem inv_begin_passthrough {s : State} (hi : s.Inv) (hb : s.bpc = .idle) (hm : s.mode = .uninit) :
    ({ s with mode := .passthrough } : State).Inv := by
  have hexch := not_inExchange_of_uninit hi hm
  obtain ⟨hwf, hlock, hbusy, ⟨hwaitHandle, -, hhandle⟩, -, hfit, -, hpend, -, hbudget, hempty, hfiles⟩ := hi
  exact ⟨hwf, hlock, hbusy, ⟨hwaitHandle, nofun, hhandle⟩, nofun, hfit, fun h => (nomatch hb.symm.trans h), hpend,
    fun h => (nomatch hexch.symm.trans h), hbudget, fun _ => hempty (by simp [hm]), hfiles⟩

/-- BEGIN's posting step (R143) keeps the invariant: the handle is acquired as APP starts to wait, and both FIFOs are
empty. -/
theorem inv_begin_post {s : State} (hi : s.Inv) (hm : s.mode = .uninit) (b : Word32) (capIn capOut : Nat) :
    ({ s with inF := ⟨[], capIn⟩, outF := ⟨[], capOut⟩, busHandle := true, baud := b, pending := true,
              bpc := .wait } : State).Inv := by
  have hwr := not_wrXfer_of_uninit hi hm
  obtain ⟨hwf, hlock, hbusy, -, -, -, -, -, hbridged, -, -, hfiles⟩ := hi
  exact ⟨hwf, hlock, hbusy, ⟨fun _ => rfl, fun _ => rfl, fun _ => rfl⟩, fun h => (nomatch hm.symm.trans h),
    ⟨by simp [Fifo.wf], by simp [Fifo.wf]⟩, fun _ => hm, ⟨fun _ => rfl, fun _ => rfl⟩, hbridged, (absurd · hwr),
    fun _ => rfl, hfiles⟩

/-- BEGIN's completion (R145) keeps the invariant: BRIDGED mode is entered with the handle and both buffers. -/
theorem inv_beginComplete {s : State} (hi : s.Inv) (hb : s.bpc = .wait) (hp : s.pending = false) :
    s.beginComplete.Inv := by
  obtain ⟨-, -, -, -, -, -, hwait, -⟩ := id hi
  have hm := hwait hb
  have hexch := not_inExchange_of_uninit hi hm
  obtain ⟨hwf, hlock, hbusy, ⟨hwaitHandle, -, hhandle⟩, hbuf, hfit, -, ⟨hpend, -⟩, -, hbudget, hempty, hfiles⟩ := hi
  refine ⟨hwf, hlock, hbusy, ⟨nofun, fun _ => hwaitHandle hb, hhandle⟩, ?_, hfit, nofun,
    ⟨hpend, fun h => (nomatch hp.symm.trans h)⟩, fun h => (nomatch hexch.symm.trans h), hbudget,
    fun _ => hempty (by simp [hm]), hfiles⟩
  intro hbridged
  have hcaps : s.outF.cap ≠ 0 ∧ s.inF.cap ≠ 0 := by
    by_contra hc
    simp [State.beginComplete, hc, hm] at hbridged
  exact ⟨Nat.pos_of_ne_zero hcaps.1, Nat.pos_of_ne_zero hcaps.2⟩

end Sys2Proof.Machine
end

section
/-! SUPPORT. Every step keeps the invariant (R59): what a call of APP's can leave behind, said once by kind of effect,
and then the invariant across each kind of turn. -/

namespace Sys2Proof.Machine

/-! ### The effect of a call -/

/-- What TICKER alone records: a frame presented to the bus, or a failed attempt to take the bus lock. -/
def Obs.onBus : Obs → Bool
  | .sent _ => true
  | .event (.busLockUnavailable _) => true
  | _ => false

/-- What a call of APP's can do to the state, by kind of effect: it answers and changes no state of the block (a
delegated operation, ISEXT, a failed TRYACQ), opens the device, posts the baud request, puts bytes into OUT, takes bytes
from IN, takes the lock, or gives it up. -/
inductive CallEffect (i : Instr) (s : State) : State → Prop
  | answered (d : Drawn) (os : List Obs) (quiet : ∀ o ∈ os, o.onBus = false) :
      CallEffect i s { s with drawn := d, trace := s.trace ++ os }
  | opened (d : Drawn) (b : Word32) (rx tx : Nat) (uninit : s.mode = .uninit) (ext : s.extOk = true) :
      CallEffect i s { s with
        mode := .passthrough, drawn := d, trace := s.trace ++ [.delegated (.begin b rx tx), .returned .none] }
  | posted (d : Drawn) (b : Word32) (capIn capOut : Nat) (os : List Obs) (quiet : ∀ o ∈ os, o.onBus = false)
      (uninit : s.mode = .uninit) :
      CallEffect i s { s with
        inF := ⟨[], capIn⟩, outF := ⟨[], capOut⟩, busHandle := true, baud := b, pending := true, bpc := .wait,
        drawn := d, trace := s.trace ++ os }
  | wrote (f : Fifo) (v : List Byte) (pushed : s.outF.push v = some f) :
      CallEffect i s { s with outF := f, trace := s.trace ++ [.returned (.accepted v.length)] }
  | read (f : Fifo) (v : List Byte) (k : Nat) (popped : s.inF.pop k = some (v, f)) :
      CallEffect i s { s with inF := f, trace := s.trace ++ [.returned (.bytes v)] }
  | acquired (free : s.lock = .free) :
      CallEffect i s { s with lock := .own, trace := s.trace ++ [.returned (.bool true)] }
  | released (rel : i = .rel) (own : s.lock = .own) (noTick : s.tpc = .idle) :
      CallEffect i s { s with lock := .free, trace := s.trace ++ [.returned .none] }

/-- Two records of the history, as one. -/
theorem emit_emit (s : State) (o o' : Obs) : (s.emit o).emit o' = { s with trace := s.trace ++ [o, o'] } := by
  simp [State.emit]

/-- An operation that is delegated, answers, and changes no state of the block (R140, R153). -/
theorem answered_of_delegated {i : Instr} (s : State) (d : Drawn) (del : Delegation) (r : Result) :
    CallEffect i s (({ s with drawn := d } : State).emit (.delegated del) |>.emit (.returned r)) := by
  rw [emit_emit]
  exact .answered d _ (by simp [Obs.onBus])

/-- An operation that answers and changes nothing. -/
theorem answered_of_returned {i : Instr} (s : State) (r : Result) : CallEffect i s (s.emit (.returned r)) :=
  .answered s.drawn [.returned r] (by simp [Obs.onBus])

/-- BEGIN's pass-through branch opens the device (R142). -/
theorem opened_of_beginPassThrough {i : Instr} {s : State} (b : Word32) (rx tx : Nat) (hm : s.mode = .uninit)
    (he : s.extOk = true) : CallEffect i s (s.drewExtOk.beginPassThrough b rx tx) := by
  rw [State.beginPassThrough, State.delegate_eq, State.returns_eq, emit_emit]
  exact .opened s.drewExtOk.drawn b rx tx hm he

/-- BEGIN's posting step posts the request, and its events are none of the bus (R143). -/
theorem posted_of_beginPost {i : Instr} {s : State} (b : Word32) (rx tx : Nat) (hm : s.mode = .uninit) :
    CallEffect i s (s.drewExtOk.beginPost b rx tx) := by
  have quiet_if : ∀ (c : Prop) [Decidable c] (e o : Obs), e.onBus = false → o ∈ (if c then [e] else []) →
      o.onBus = false := by
    intro c _ e o he ho
    split_ifs at ho
    · rwa [List.mem_singleton.mp ho]
    · cases ho
  rw [beginPost_eq]
  refine .posted _ b _ _ _ (fun o ho => ?_) hm
  simp only [List.mem_append] at ho
  obtain (ho | ho) | ho := ho <;> exact quiet_if _ _ o rfl ho

/-- WRITE on the outbound FIFO pushes what fits (R148). -/
theorem wrote_of_write {i : Instr} (s : State) (d : List Byte) :
    CallEffect i s (({ s with
      outF := { s.outF with bytes := s.outF.bytes ++ d.take (min d.length s.outF.free) } } : State).emit
        (.returned (.accepted (min d.length s.outF.free)))) := by
  have hlen : (d.take (min d.length s.outF.free)).length = min d.length s.outF.free := by
    rw [List.length_take]
    omega
  have hfit : min d.length s.outF.free ≤ s.outF.cap - s.outF.bytes.length := min_le_right ..
  have := CallEffect.wrote (i := i) _ _ (push_eq_some.mpr ⟨hlen.trans_le hfit, rfl⟩)
  rwa [hlen] at this

/-- READ on the inbound FIFO pops what is there (R149). -/
theorem read_of_oldest {i : Instr} (s : State) (len : Nat) :
    CallEffect i s (({ s with inF := { s.inF with bytes := s.inF.bytes.drop (min len s.inF.size) } } : State).emit
      (.returned (.bytes (s.inF.bytes.take (min len s.inF.size))))) :=
  .read _ _ _ (pop_eq_some.mpr ⟨min_le_right .., rfl, rfl⟩)

/-- Every call has one of these effects, and is issued outside BEGIN. -/
theorem call_effect {call : List Byte} {i : Instr} {s t : State} (hd : decodeCall call = .ok i) (hn : i ≠ .tick)
    (h : exec i s = .next t) : s.bpc = .idle ∧ CallEffect i s t := by
  obtain ⟨hb, h⟩ := call_cases hd hn h
  refine ⟨hb, ?_⟩
  rcases h with ⟨b, rx, tx, ⟨hm, he, rfl⟩ | ⟨hm, -, rfl⟩ | ⟨-, rfl⟩⟩ | ⟨d, -, ⟨-, rfl⟩ | ⟨-, rfl⟩⟩ |
    ⟨len, ⟨-, rfl⟩ | ⟨-, rfl⟩⟩ | ⟨b, rfl⟩ | ⟨-, rfl⟩ | ⟨-, hl, rfl⟩ | ⟨-, rfl⟩ | ⟨hi, -, hl, ht, rfl⟩
  · exact opened_of_beginPassThrough b rx tx hm he
  · exact posted_of_beginPost b rx tx hm
  · exact answered_of_delegated s s.drawn ..
  · exact answered_of_delegated s s.drewUartAccepted.drawn ..
  · exact wrote_of_write s d
  · exact answered_of_delegated s s.drewUartBytes.drawn ..
  · exact read_of_oldest s len
  · exact answered_of_returned s _
  · exact answered_of_delegated s s.drewUartAcquired.drawn ..
  · exact .acquired hl
  · exact answered_of_delegated s s.drawn ..
  · exact .released hi hl ht

/-! ### The invariant, turn by turn -/

/-- The operations of APP keep the invariant. -/
theorem call_keepsInv {i : Instr} {s t : State} (hi : s.Inv) (hb : s.bpc = .idle) (h : CallEffect i s t) : t.Inv := by
  obtain ⟨-, -, -, -, -, ⟨hout, hin⟩, -, -, -, hbudget, hempty, -⟩ := id hi
  cases h with
  | answered => exact hi
  | opened _ _ _ _ hm => exact inv_begin_passthrough hi hb hm
  | posted _ b capIn capOut _ _ hm => exact inv_begin_post hi hm b capIn capOut
  | wrote f v hp =>
    obtain ⟨-, hf⟩ := push_eq_some.mp hp
    refine inv_withOutF hi (by rw [hf]) (push_keeps_wf hp hout) fun ht => ?_
    have hlen : s.outF.size ≤ f.size := by simp [hf, Fifo.size]
    exact (hbudget ht).1.trans hlen
  | read f v k hp =>
    obtain ⟨-, -, hf⟩ := pop_eq_some.mp hp
    exact inv_withInF hi (by rw [hf]) (pop_keeps_wf hp hin) fun hm => by simp [hf, hempty hm]
  | acquired hl => exact inv_withLock hi _ (not_holdsLock_of_not_own hi (by simp [hl]))
  | released _ _ ht => exact inv_withLock hi _ (by rw [ht]; rfl)

/-- TICK's entry step keeps the invariant, row by row of its priority chain (R191). -/
theorem tickEntry_keepsInv {s : State} (hi : s.Inv) : s.tickEntry.Inv := by
  rcases tickEntry_cases s with ⟨-, h⟩ | ⟨-, -, h⟩ | ⟨ht, -, hp, -, h⟩ | ⟨-, -, -, -, h⟩ | ⟨-, -, -, h⟩ |
    ⟨-, -, -, -, h⟩ | ⟨-, hm, -, -, -, h⟩ | ⟨ht, -, -, -, -, h⟩ <;> rw [h]
  case inr.inr.inl => exact inv_enterHandshake hi ht hp
  case inr.inr.inr.inr.inr.inr.inl => exact inv_enterExchange hi hm
  case inr.inr.inr.inr.inr.inr.inr =>
    have := inv_clearBusy hi ht
    exact this
  all_goals exact hi

/-- The inspection pushes into IN, ends at `T_FINISH`, and changes nothing else but the history (R188). -/
theorem inspected_eq {s t : State} (h : s.inspected t) :
    ∃ (f : Fifo) (v : List Byte) (os : List Obs), s.inF.push v = some f ∧
      t = { s with inF := f, tpc := .finish, trace := s.trace ++ os } := by
  rcases h with ⟨e, rfl⟩ | ⟨m, hm, rfl⟩
  · exact ⟨s.inF, [], [.event e], push_eq_some.mpr (by simp), rfl⟩
  · refine ⟨_, _, _, push_eq_some.mpr ⟨?_, rfl⟩, rfl⟩
    rw [List.length_take]
    omega

/-- The inspection keeps the invariant: it runs in BRIDGED mode, and pushes what fits. -/
theorem inspected_keepsInv {s t : State} (hi : s.Inv) (ht : s.tpc = .inspect) (h : s.inspected t) : t.Inv := by
  obtain ⟨f, v, os, hp, rfl⟩ := inspected_eq h
  obtain ⟨-, hf⟩ := push_eq_some.mp hp
  obtain ⟨-, -, -, -, -, ⟨-, hin⟩, -, -, hbridged, -⟩ := id hi
  have hm : s.mode = .bridged := hbridged (by rw [ht]; rfl)
  have hpushed : ({ s with inF := f } : State).Inv :=
    inv_withInF hi (by rw [hf]) (push_keeps_wf hp hin) (absurd hm ·)
  exact inv_withTpcLock (y := .finish) (l := s.lock) hpushed ht nofun rfl nofun nofun

/-- The data-write transfer keeps the invariant: it leaves the step that reads NTX, and OUT loses the bytes sent. -/
theorem wrXfer_keepsInv {s : State} (hi : s.Inv) (ht : s.tpc = .wrXfer) (hn : s.ntx ≤ s.outF.bytes.length)
    (d : List Byte) : ((({ s with outF := { s.outF with bytes := s.outF.bytes.drop s.ntx } } : State).afterXfer
      (buildDataWr s.cfg d)).goto .wrSettle).Inv := by
  obtain ⟨-, -, -, -, -, ⟨hout, -⟩, -⟩ := id hi
  have hmoved : (s.goto .wrSettle).Inv := inv_goto hi ht rfl rfl rfl nofun
  have hfits := pop_keeps_wf (pop_eq_some.mpr ⟨hn, rfl, rfl⟩) hout
  have hdropped := inv_withOutF (f := { s.outF with bytes := s.outF.bytes.drop s.ntx }) hmoved rfl hfits nofun
  exact inv_afterXfer hdropped (buildDataWr_payload_length s.cfg d)

/-- TICKER's micro-steps keep the invariant, each by the law of its move. -/
theorem tickerTurn_keepsInv {s t : State} (hi : s.Inv) (h : tickerTurn s = .next t) : t.Inv := by
  rcases tickerTurn_cases h with ⟨-, rfl⟩ | ⟨ht, -, rfl⟩ | ⟨ht, rfl⟩ | ⟨ht, -, rfl⟩ | ⟨ht, rfl⟩ | ⟨ht, -, hn, -, rfl⟩ |
    ⟨ht, rfl⟩ | ⟨ht, -, rfl⟩ | ⟨ht, rfl⟩ | ⟨ht, -, rfl⟩ | ⟨ht, h⟩ | ⟨ht, rfl⟩
  · exact hi
  · exact inv_afterXfer (inv_goto (y := .cfgSettle) hi ht rfl rfl rfl nofun) (buildCfgBaud_payload_length s.cfg s.baud)
  · exact inv_goto hi ht rfl rfl rfl nofun
  · exact inv_endHandshake hi ht
  · exact inv_takeBudget hi ht
  · exact wrXfer_keepsInv hi ht hn _
  · exact inv_goto hi ht rfl rfl rfl nofun
  · exact inv_afterXfer (inv_goto (y := .rdSettle) hi ht rfl rfl rfl nofun) (buildDataRd_payload_length s.cfg)
  · exact inv_goto hi ht rfl rfl rfl nofun
  · exact inv_withTpcLock hi ht nofun rfl nofun nofun
  · exact inspected_keepsInv hi ht h
  · exact inv_finish hi _

/-- Settles O45: turn by turn, APP's calls and its completion of BEGIN, the strobe, TICKER's micro-step, and ENV's
moves, which take no lock from the tick. -/
theorem everyStepKeepsInv : Obligations.EveryStepKeepsInv := by
  intro s t hi h
  refine step_elim h ?stay ?done ?call ?strobe ?micro ?advance ?taken ?released
  case stay => exact fun _ => hi
  case done => exact fun r => inv_beginComplete (s := { s with sched := r }) hi
  case call =>
    intro r call rest i hb _ hd hn t h
    obtain ⟨-, heff⟩ := call_effect hd hn h
    exact call_keepsInv (s := { s with sched := r, app := rest }) hi hb heff
  case strobe => exact fun r => tickEntry_keepsInv (s := { s with sched := r }) hi
  case micro => exact fun r _ => tickerTurn_keepsInv (s := { s with sched := r }) hi
  case advance => exact fun _ _ => hi
  case taken =>
    intro r hl
    exact inv_withLock (s := { s with sched := r }) hi _ (not_holdsLock_of_not_own hi (by simp [hl]))
  case released =>
    intro r hl
    exact inv_withLock (s := { s with sched := r }) hi _ (not_holdsLock_of_not_own hi (by simp [hl]))

end Sys2Proof.Machine
end

section
/-! SUPPORT. What the strobe and TICKER's micro-steps can do, by kind of effect, and which part of the state each agent
leaves alone. -/

namespace Sys2Proof.Machine

/-! ### The effect of the strobe -/

/-- What TICK's entry step can do: record something and change nothing, enter the handshake or the exchange with the
lock, or fail to take the lock for one of them. -/
inductive EntryEffect (s : State) : State → Prop
  | recorded (o : Obs) (quiet : o.onBus = false) : EntryEffect s (s.emit o)
  | handshakeEntered (idle : s.tpc = .idle) (pending : s.pending = true) (free : s.lock = .free) :
      EntryEffect s (s.takeLock.goto .cfgXfer)
  | handshakeRefused (idle : s.tpc = .idle) (pending : s.pending = true) :
      EntryEffect s (s.emit (.event (.busLockUnavailable .handshake)))
  | exchangeEntered (idle : s.tpc = .idle) (bridged : s.mode = .bridged) (free : s.lock = .free) :
      EntryEffect s (s.setBusy.takeLock.goto .budget)
  | exchangeRefused (idle : s.tpc = .idle) (bridged : s.mode = .bridged) :
      EntryEffect s (s.setBusy.clearBusy.emit (.event (.busLockUnavailable .exchange)))

/-- The entry step has one of these effects. -/
theorem tickEntry_effect (s : State) : EntryEffect s s.tickEntry := by
  rcases tickEntry_cases s with ⟨-, h⟩ | ⟨-, -, h⟩ | ⟨ht, -, hp, hl, h⟩ | ⟨ht, -, hp, -, h⟩ | ⟨-, -, -, h⟩ |
    ⟨-, -, -, -, h⟩ | ⟨ht, hm, -, -, hl, h⟩ | ⟨ht, hm, -, -, -, h⟩ <;> rw [h]
  · exact .recorded _ rfl
  · exact .recorded _ rfl
  · exact .handshakeEntered ht hp hl
  · exact .handshakeRefused ht hp
  · exact .recorded _ rfl
  · exact .recorded _ rfl
  · exact .exchangeEntered ht hm hl
  · exact .exchangeRefused ht hm

/-- The entry step writes neither the parameters nor the frame files, MODE, PENDING or LAST_TS. -/
theorem entry_frame {s t : State} (h : EntryEffect s t) : t.toParams = s.toParams ∧ t.txf = s.txf ∧ t.rxf = s.rxf ∧
    t.mode = s.mode ∧ t.pending = s.pending ∧ t.lastTs = s.lastTs := by
  cases h <;> exact ⟨rfl, rfl, rfl, rfl, rfl, rfl⟩

/-! ### The effect of a micro-step -/

/-- What a micro-step of TICKER can do: nothing (no tick is in progress), move on (a settle step, or `T_BUDGET`, which
writes NTX), transfer a frame, end the handshake, release the lock after the exchange, inspect, finish. -/
inductive MicroEffect (s : State) : State → Prop
  | rested (idle : s.tpc = .idle) : MicroEffect s s
  | moved (n : Nat) (x : TickStep) (inTick : s.tpc ≠ .idle) : MicroEffect s { s with ntx := n, tpc := x }
  | transferred (q : Fifo) (f : Frame) (x : TickStep) (inTick : s.tpc ≠ .idle) :
      MicroEffect s ((({ s with outF := q } : State).afterXfer f).goto x)
  | handshakeEnded (step : s.tpc = .cfgDone) : MicroEffect s { s with lock := .free, pending := false, tpc := .idle }
  | unlocked (step : s.tpc = .unlock) : MicroEffect s { s with lock := .free, tpc := .inspect }
  | inspected (f : Fifo) (os : List Obs) (step : s.tpc = .inspect) :
      MicroEffect s { s with inF := f, tpc := .finish, trace := s.trace ++ os }
  | finished (step : s.tpc = .finish) : MicroEffect s { s with busy := false, lastTs := s.now, tpc := .idle }

/-- A micro-step has one of these effects. -/
theorem tickerTurn_effect {s t : State} (h : tickerTurn s = .next t) : MicroEffect s t := by
  rcases tickerTurn_cases h with ⟨ht, rfl⟩ | ⟨ht, -, rfl⟩ | ⟨ht, rfl⟩ | ⟨ht, -, rfl⟩ | ⟨ht, rfl⟩ | ⟨ht, -, -, -, rfl⟩ |
    ⟨ht, rfl⟩ | ⟨ht, -, rfl⟩ | ⟨ht, rfl⟩ | ⟨ht, -, rfl⟩ | ⟨ht, h⟩ | ⟨ht, rfl⟩
  · exact .rested ht
  · exact .transferred s.outF _ _ (by simp [ht])
  · exact .moved s.ntx _ (by simp [ht])
  · exact .handshakeEnded ht
  · exact .moved _ _ (by simp [ht])
  · exact .transferred _ _ _ (by simp [ht])
  · exact .moved s.ntx _ (by simp [ht])
  · exact .transferred s.outF _ _ (by simp [ht])
  · exact .moved s.ntx _ (by simp [ht])
  · exact .unlocked ht
  · obtain ⟨f, -, os, -, rfl⟩ := inspected_eq h
    exact .inspected f os ht
  · exact .finished ht

/-- A micro-step writes neither the parameters nor MODE. -/
theorem micro_frame {s t : State} (h : MicroEffect s t) : t.toParams = s.toParams ∧ t.mode = s.mode := by
  cases h <;> exact ⟨rfl, rfl⟩

/-! ### What everything but TICKER leaves alone -/

/-- What is added to the history, where the history is extended. -/
theorem newObs_of_append {s t : State} {os : List Obs} (h : t.trace = s.trace ++ os) : newObs s t = os := by
  simp [newObs, h]

/-- Between the two states TICKER has not moved: the parameters and the part of the block that only TICKER writes are
the same, and nothing of the bus is recorded. -/
structure TickerRests (s t : State) : Prop where
  params : t.toParams = s.toParams
  txf : t.txf = s.txf
  rxf : t.rxf = s.rxf
  tpc : t.tpc = s.tpc
  busy : t.busy = s.busy
  lastTs : t.lastTs = s.lastTs
  quiet : ∀ o ∈ newObs s t, o.onBus = false

/-- Where nothing is recorded, nothing of the bus is. -/
theorem quiet_of_same_trace {s t : State} (h : t.trace = s.trace) : ∀ o ∈ newObs s t, o.onBus = false := by
  simp [newObs, h]

/-- A call of APP's leaves TICKER's part alone. -/
theorem call_tickerRests {i : Instr} {s t : State} (h : CallEffect i s t) : TickerRests s t := by
  have hquiet : ∃ os, t.trace = s.trace ++ os ∧ ∀ o ∈ os, o.onBus = false := by
    cases h with
    | answered _ os hq => exact ⟨os, rfl, hq⟩
    | posted _ _ _ _ os hq => exact ⟨os, rfl, hq⟩
    | opened | wrote | read | acquired | released => exact ⟨_, rfl, by simp [Obs.onBus]⟩
  obtain ⟨os, htrace, hq⟩ := hquiet
  have hobs : ∀ o ∈ newObs s t, o.onBus = false := by rwa [newObs_of_append htrace]
  cases h <;> exact ⟨rfl, rfl, rfl, rfl, rfl, rfl, hobs⟩

/-- The completion of BEGIN leaves TICKER's part alone. -/
theorem beginComplete_tickerRests (s : State) : TickerRests s s.beginComplete := by
  refine ⟨rfl, rfl, rfl, rfl, rfl, rfl, ?_⟩
  rw [newObs_of_append (os := [.returned .none]) rfl]
  simp [Obs.onBus]

/-- A step is TICKER's strobe or micro-step, or TICKER rests. -/
theorem step_ticker_cases {s t : State} (h : step s = .next t) :
    (∃ r, EntryEffect { s with sched := r } t) ∨ (∃ r, MicroEffect { s with sched := r } t) ∨ TickerRests s t := by
  have hrests : ∀ (r : List Turn) (a : List (List Byte)), TickerRests { s with sched := r, app := a } t →
      TickerRests s t := fun _ _ ⟨h1, h2, h3, h4, h5, h6, h7⟩ => ⟨h1, h2, h3, h4, h5, h6, h7⟩
  revert hrests
  apply step_elim h
  case strobe => exact fun r _ => .inl ⟨r, tickEntry_effect _⟩
  case micro => exact fun r t h _ => .inr (.inl ⟨r, tickerTurn_effect h⟩)
  case done => exact fun r _ _ hrests => .inr (.inr (hrests r s.app (beginComplete_tickerRests _)))
  case call =>
    intro r call rest i _ _ hd hn t h hrests
    exact .inr (.inr (hrests r rest (call_tickerRests (call_effect hd hn h).2)))
  all_goals
    intros
    exact .inr (.inr ⟨rfl, rfl, rfl, rfl, rfl, rfl, quiet_of_same_trace rfl⟩)

/-- Settles O50: each of the three kinds of step leaves the parameters alone. -/
theorem noStepWritesTheParameters : Obligations.NoStepWritesTheParameters := by
  intro s t h
  rcases step_ticker_cases h with ⟨r, hentry⟩ | ⟨r, hmicro⟩ | hrests
  · exact (entry_frame hentry).1
  · exact (micro_frame hmicro).1
  · exact hrests.params

end Sys2Proof.Machine
end

section
/-! SUPPORT. Who writes what: the statements about the writers of the frame files, LAST_TS, BUSY, MODE, PENDING and the
lock. -/

namespace Sys2Proof.Machine

/-! ### The frame files, the timestamp and the guard -/

/-- A micro-step writes a frame file only by sending the frame that TXF then holds (R31, R32, R78). -/
theorem micro_files {s t : State} (h : MicroEffect s t) :
    (t.txf = s.txf ∧ t.rxf = s.rxf) ∨ newObs s t = [.sent t.txf] := by
  cases h with
  | transferred q f x => exact .inr (newObs_of_append rfl)
  | rested | moved | handshakeEnded | unlocked | inspected | finished => exact .inl ⟨rfl, rfl⟩

/-- Settles O56: of all steps only a transfer writes a frame file. -/
theorem frameFilesChangeOnlyOnTheBus : Obligations.FrameFilesChangeOnlyOnTheBus := by
  intro s t h hchange
  have hfiles : (t.txf = s.txf ∧ t.rxf = s.rxf) ∨ newObs s t = [.sent t.txf] := by
    rcases step_ticker_cases h with ⟨r, hentry⟩ | ⟨r, hmicro⟩ | hrests
    · obtain ⟨-, htxf, hrxf, -⟩ := entry_frame hentry
      exact .inl ⟨htxf, hrxf⟩
    · exact micro_files (s := { s with sched := r }) hmicro
    · exact .inl ⟨hrests.txf, hrests.rxf⟩
  exact hfiles.resolve_left fun ⟨htxf, hrxf⟩ => hchange.elim (· htxf) (· hrxf)

/-- The entry step raises BUSY with the lock, on the way to `T_BUDGET`; where it fails, BUSY ends at 0 (R179). -/
theorem entry_busy {s t : State} (h : EntryEffect s t) :
    t.busy = s.busy ∨ (s.tpc = .idle ∧ t.tpc = .budget ∧ t.lock = .own ∧ t.busy = true) ∨
      (s.tpc = .idle ∧ t.busy = false) := by
  cases h with
  | recorded | handshakeEntered | handshakeRefused => exact .inl rfl
  | exchangeEntered ht => exact .inr (.inl ⟨ht, rfl, rfl, rfl⟩)
  | exchangeRefused ht => exact .inr (.inr ⟨ht, rfl⟩)

/-- A micro-step writes BUSY and LAST_TS at `T_FINISH` only (R190). -/
theorem micro_busy_lastTs {s t : State} (h : MicroEffect s t) :
    (t.busy = s.busy ∧ t.lastTs = s.lastTs) ∨ (s.tpc = .finish ∧ t.busy = false ∧ t.lastTs = s.now) := by
  cases h with
  | finished ht => exact .inr ⟨ht, rfl, rfl⟩
  | rested | moved | transferred | handshakeEnded | unlocked | inspected => exact .inl ⟨rfl, rfl⟩

/-- Settles O53: the strobe raises BUSY, `T_FINISH` clears it and stamps the clock; a failed attempt finds BUSY at 0,
since the invariant has it so between ticks, and leaves it there. -/
theorem timestampAndGuardWriters : Obligations.TimestampAndGuardWriters := by
  intro s t hi h
  obtain ⟨-, -, hbusy, -⟩ := hi
  rcases step_ticker_cases h with ⟨r, hentry⟩ | ⟨r, hmicro⟩ | hrests
  · obtain ⟨-, -, -, -, -, hlast⟩ := entry_frame hentry
    refine ⟨absurd hlast, ?_⟩
    rcases entry_busy hentry with hsame | ⟨ht, htpc, hlock, hup⟩ | ⟨ht, hdown⟩
    · simp_all
    · simp_all
    · have hidle : s.busy = false := hbusy.trans (congrArg TickStep.inExchange ht)
      simp_all
  · rcases micro_busy_lastTs hmicro with ⟨hsame, hlast⟩ | ⟨ht, hdown, hnow⟩
    · simp_all
    · exact ⟨fun _ => ⟨ht, hnow⟩, by simp [hdown], fun _ _ => ht⟩
  · have hsame := hrests.busy
    have hlast := hrests.lastTs
    simp_all

/-! ### MODE -/

/-- A call writes MODE only where the device opens (R142). -/
theorem call_mode {i : Instr} {s t : State} (h : CallEffect i s t) :
    t.mode = s.mode ∨ (s.mode = .uninit ∧ t.mode = .passthrough ∧ s.extOk = true ∧
      ∃ b rx tx, newObs s t = [.delegated (.begin b rx tx), .returned .none]) := by
  cases h with
  | opened _ b rx tx hm he => exact .inr ⟨hm, rfl, he, b, rx, tx, newObs_of_append rfl⟩
  | answered | posted | wrote | read | acquired | released => exact .inl rfl

/-- The completion of BEGIN writes MODE only where both buffers are allocated (R145). -/
theorem beginComplete_mode (s : State) :
    s.beginComplete.mode = s.mode ∨ (s.beginComplete.mode = .bridged ∧ 0 < s.outF.cap ∧ 0 < s.inF.cap) := by
  by_cases hcaps : s.outF.cap ≠ 0 ∧ s.inF.cap ≠ 0
  · exact .inr ⟨if_pos hcaps, Nat.pos_of_ne_zero hcaps.1, Nat.pos_of_ne_zero hcaps.2⟩
  · exact .inl (if_neg hcaps)

/-- Settles O51: TICKER and ENV leave MODE alone, a call writes it where the device opens, and BEGIN's completion where
both buffers are allocated, waiting in UNINIT mode by the invariant. -/
theorem modeIsSetOnce : Obligations.ModeIsSetOnce := by
  intro s t hi h
  obtain ⟨-, -, -, -, -, -, hwait, -⟩ := hi
  apply step_elim h
  case done =>
    intro r hb hp hchange
    obtain hsame | ⟨hm, hout, hin⟩ := beginComplete_mode { s with sched := r }
    · exact absurd hsame hchange
    · exact ⟨hwait hb, .inr ⟨hm, hb, rfl, hp, hout, hin, newObs_of_append rfl⟩⟩
  case call =>
    intro r call rest i hb _ hd hn t h hchange
    obtain hsame | ⟨hu, hm, he, hobs⟩ := call_mode (call_effect hd hn h).2
    · exact absurd hsame hchange
    · exact ⟨hu, .inl ⟨hm, hb, he, hobs⟩⟩
  case strobe =>
    intro r hchange
    obtain ⟨-, -, -, hmode, -⟩ := entry_frame (tickEntry_effect { s with sched := r })
    exact absurd hmode hchange
  case micro => exact fun r t h hchange => absurd (micro_frame (tickerTurn_effect h)).2 hchange
  all_goals
    intros
    contradiction

/-! ### PENDING -/

/-- A call writes PENDING only in BEGIN's posting step (R143). -/
theorem call_pending {i : Instr} {s t : State} (h : CallEffect i s t) :
    t.pending = s.pending ∨ (t.pending = true ∧ s.mode = .uninit ∧ t.bpc = .wait) := by
  cases h with
  | posted _ _ _ _ _ _ hm => exact .inr ⟨rfl, hm, rfl⟩
  | answered | opened | wrote | read | acquired | released => exact .inl rfl

/-- A micro-step writes PENDING only at `T_CFG_DONE` (R176). -/
theorem micro_pending {s t : State} (h : MicroEffect s t) :
    t.pending = s.pending ∨ (t.pending = false ∧ s.tpc = .cfgDone ∧ t.tpc = .idle) := by
  cases h with
  | handshakeEnded ht => exact .inr ⟨rfl, ht, rfl⟩
  | rested | moved | transferred | unlocked | inspected | finished => exact .inl rfl

/-- A step leaves PENDING as it is, or is BEGIN's posting step, which sets it, or `T_CFG_DONE`, which clears it
(R38). -/
theorem step_pending {s t : State} (h : step s = .next t) :
    t.pending = s.pending ∨ (t.pending = true ∧ s.bpc = .idle ∧ s.mode = .uninit ∧ t.bpc = .wait) ∨
      (t.pending = false ∧ s.tpc = .cfgDone ∧ t.tpc = .idle) := by
  apply step_elim h
  case call =>
    intro r call rest i hb _ hd hn t h
    obtain hsame | ⟨hup, hm, hw⟩ := call_pending (call_effect hd hn h).2
    · exact .inl hsame
    · exact .inr (.inl ⟨hup, hb, hm, hw⟩)
  case micro =>
    intro r t h
    obtain hsame | hdone := micro_pending (tickerTurn_effect h)
    · exact .inl hsame
    · exact .inr (.inr hdone)
  case strobe =>
    intro r
    obtain ⟨-, -, -, -, hsame, -⟩ := entry_frame (tickEntry_effect { s with sched := r })
    exact .inl hsame
  all_goals
    intros
    exact .inl rfl

/-- Settles O52: the two kinds of step that write PENDING are told apart by what they write. -/
theorem pendingHasTwoWriters : Obligations.PendingHasTwoWriters := by
  intro s t h
  obtain hsame | ⟨hup, hposting⟩ | ⟨hdown, hdone⟩ := step_pending h
  · simp_all
  · exact ⟨fun _ _ => hposting, by simp [hup]⟩
  · exact ⟨by simp [hdown], fun _ _ => hdone⟩

/-! ### The lock -/

/-- The entry step never gives up the lock (R173, R179). -/
theorem entry_keeps_own {s t : State} (h : EntryEffect s t) (hl : s.lock = .own) : t.lock = .own := by
  cases h with
  | recorded | handshakeRefused | exchangeRefused => exact hl
  | handshakeEntered | exchangeEntered => rfl

/-- A micro-step gives up the lock at `T_CFG_DONE` and at `T_UNLOCK` only (R176, R187). -/
theorem micro_lock {s t : State} (h : MicroEffect s t) :
    t.lock = s.lock ∨ (t.lock = .free ∧
      ((s.tpc = .cfgDone ∧ t.tpc = .idle) ∨ (s.tpc = .unlock ∧ t.tpc = .inspect))) := by
  cases h with
  | handshakeEnded ht => exact .inr ⟨rfl, .inl ⟨ht, rfl⟩⟩
  | unlocked ht => exact .inr ⟨rfl, .inr ⟨ht, rfl⟩⟩
  | rested | moved | transferred | inspected | finished => exact .inl rfl

/-- A call gives up the lock only where it is REL, between ticks (R152). -/
theorem call_lock {i : Instr} {s t : State} (h : CallEffect i s t) (hl : s.lock = .own) :
    t.lock = .own ∨ (i = .rel ∧ t.lock = .free ∧ s.tpc = .idle ∧ t.tpc = .idle ∧ newObs s t = [.returned .none]) := by
  cases h with
  | released hi _ ht => exact .inr ⟨hi, rfl, ht, ht, newObs_of_append rfl⟩
  | acquired => exact .inl rfl
  | answered | opened | posted | wrote | read => exact .inl hl

/-- A step that gives up the lock leaves it free: it is one of the tick's two release steps, or APP's REL. -/
theorem step_lock_of_own {s t : State} (h : step s = .next t) (hl : s.lock = .own) (hchange : t.lock ≠ .own) :
    t.lock = .free ∧
      ((s.tpc = .cfgDone ∧ t.tpc = .idle) ∨ (s.tpc = .unlock ∧ t.tpc = .inspect) ∨
       (s.tpc = .idle ∧ t.tpc = .idle ∧ newObs s t = [.returned .none] ∧
          ∃ call rest, s.app = call :: rest ∧ decodeCall call = .ok .rel)) := by
  revert hchange
  apply step_elim h
  case call =>
    intro r call rest i _ ha hd hn t h hchange
    obtain hown | ⟨rfl, hfree, ht, ht', hobs⟩ := call_lock (call_effect hd hn h).2 hl
    · exact absurd hown hchange
    · exact ⟨hfree, .inr (.inr ⟨ht, ht', hobs, call, rest, ha, hd⟩)⟩
  case micro =>
    intro r t h hchange
    obtain hsame | ⟨hfree, hdone | hunlock⟩ := micro_lock (tickerTurn_effect h)
    · exact absurd (hsame.trans hl) hchange
    · exact ⟨hfree, .inl hdone⟩
    · exact ⟨hfree, .inr (.inl hunlock)⟩
  case strobe => exact fun r hchange => absurd (entry_keeps_own (tickEntry_effect { s with sched := r }) hl) hchange
  case taken => exact fun _ hfree => nomatch hl.symm.trans hfree
  case released => exact fun _ hother => nomatch hl.symm.trans hother
  all_goals
    intros
    contradiction

/-! ### The bus handle -/

/-- While a tick is in progress the bus handle is held: the handshake holds the lock, the exchange runs in BRIDGED mode
(R49). -/
theorem handle_of_tick {s : State} (hi : s.Inv) (ht : s.tpc ≠ .idle) : s.busHandle = true := by
  obtain ⟨-, -, -, ⟨-, hbridgeHandle, hlockHandle⟩, -, -, -, -, hbridged, -⟩ := hi
  have hpart : s.tpc.holdsLock = true ∨ s.tpc.inExchange = true := by
    revert ht
    cases s.tpc <;> simp [TickStep.holdsLock, TickStep.inExchange]
  exact hpart.elim hlockHandle fun hexch => hbridgeHandle (hbridged hexch)

/-- The entry step starts a tick, or tries for the lock, only with the bus handle: a pending request has BEGIN waiting
with it, and BRIDGED mode has it (R49). -/
theorem handle_of_entry {s t : State} (hi : s.Inv) (ht : s.tpc = .idle) (h : EntryEffect s t)
    (hbus : t.tpc ≠ .idle ∨ ∃ o ∈ newObs s t, o.onBus = true) : s.busHandle = true := by
  obtain ⟨-, -, -, ⟨hwaitHandle, hbridgeHandle, -⟩, -, -, -, ⟨-, hpost⟩, -⟩ := hi
  cases h with
  | recorded o hq =>
    have hobs : newObs s (s.emit o) = [o] := newObs_of_append rfl
    simp [hobs, ht, hq] at hbus
  | handshakeEntered _ hp => exact hwaitHandle (hpost hp)
  | handshakeRefused _ hp => exact hwaitHandle (hpost hp)
  | exchangeEntered _ hm => exact hbridgeHandle hm
  | exchangeRefused _ hm => exact hbridgeHandle hm

/-- A step between ticks that starts a tick or records something of the bus does so with the bus handle. -/
theorem handle_of_step_from_idle {s t : State} (hi : s.Inv) (ht : s.tpc = .idle) (h : step s = .next t)
    (hbus : t.tpc ≠ .idle ∨ ∃ o ∈ newObs s t, o.onBus = true) : s.busHandle = true := by
  rcases step_ticker_cases h with ⟨r, hentry⟩ | ⟨r, hmicro⟩ | hrests
  · exact handle_of_entry (s := { s with sched := r }) hi ht hentry hbus
  · cases hmicro with
    | rested => simp [ht, newObs] at hbus
    | moved _ _ hn => exact absurd ht hn
    | transferred _ _ _ hn => exact absurd ht hn
    | handshakeEnded h' => exact nomatch ht.symm.trans h'
    | unlocked h' => exact nomatch ht.symm.trans h'
    | inspected _ _ h' => exact nomatch ht.symm.trans h'
    | finished h' => exact nomatch ht.symm.trans h'
  · have hquiet := hrests.quiet
    have hidle := hrests.tpc.trans ht
    obtain hn | ⟨o, ho, hb⟩ := hbus
    · exact absurd hidle hn
    · exact nomatch (hquiet o ho).symm.trans hb

/-- Settles O54: the releases kind by kind of turn; and the handle, which a tick in progress holds and which a step
between ticks needs to start one or to try for the lock. -/
theorem onlyReleasesGiveUpTheLock : Obligations.OnlyReleasesGiveUpTheLock := by
  refine ⟨fun s t => step_lock_of_own, fun s t hi h hbus => ?_⟩
  by_cases ht : s.tpc = .idle
  · refine handle_of_step_from_idle hi ht h ?_
    obtain hs | hlock | ⟨f, hf⟩ | ⟨site, hsite⟩ := hbus
    · rw [ht] at hs
      cases hs
    · refine .inl fun hidle => ?_
      rw [hidle] at hlock
      cases hlock
    · exact .inr ⟨_, hf, rfl⟩
    · exact .inr ⟨_, hsite, rfl⟩
  · exact handle_of_tick hi ht

end Sys2Proof.Machine
end

section
/-! SUPPORT. APP inside BEGIN, and ENV's turns. -/

namespace Sys2Proof.Machine

/-- While APP is inside BEGIN its operations are refused (R37, R154). -/
theorem whenAppFree_of_wait {s : State} {k : State → Outcome} (h : s.bpc = .wait) :
    whenAppFree s k = .refused .appBlocked :=
  if_neg (by simp [h])

/-- Settles O24: the meaning of each of APP's operations is guarded by `whenAppFree`. -/
theorem appIsBlockedInsideBegin : Obligations.AppIsBlockedInsideBegin := by
  rintro s i hb (⟨b, rx, tx, rfl⟩ | ⟨d, rfl⟩ | ⟨n, rfl⟩ | rfl | rfl | rfl)
  · rw [exec, execBegin, whenAppFree_of_wait hb]
  · rw [exec, execWrite, whenAppFree_of_wait hb]
  · rw [exec, execRead, whenAppFree_of_wait hb]
  · rw [exec, execIsext, whenAppFree_of_wait hb]
  · rw [exec, execTryacq, whenAppFree_of_wait hb]
  · rw [exec, execRel, whenAppFree_of_wait hb]

/-- Another user takes the lock where it is free (R53). -/
theorem busTaken_eq (s : State) : s.busTaken = { s with lock := if s.lock = .free then .other else s.lock } := by
  rcases busTaken_cases s with ⟨hl, h⟩ | ⟨hl, h⟩ <;> simp [h, hl]

/-- Another user releases the lock where it holds it (R53). -/
theorem busReleased_eq (s : State) : s.busReleased = { s with lock := if s.lock = .other then .free else s.lock } := by
  rcases busReleased_cases s with ⟨hl, h⟩ | ⟨hl, h⟩ <;> simp [h, hl]

/-- Settles O42: a scheduled turn of ENV is the step, and moves the clock or the lock. -/
theorem envMovesClockAndFreeLockOnly : Obligations.EnvMovesClockAndFreeLockOnly := by
  intro s ts hwf
  refine ⟨fun us hs => step_of_scheduled hwf hs, fun hs => ?_, fun hs => ?_⟩
  · rw [step_of_scheduled hwf hs, takeTurn, busTaken_eq]
  · rw [step_of_scheduled hwf hs, takeTurn, busReleased_eq]

end Sys2Proof.Machine
end

section
/-! SUPPORT. Frames as instructions: which frame instruction runs where (R122), the inspection of any received frame
(R121), what a frame on the bus is (R251), and the reserved select (R126). -/

namespace Sys2Proof.Machine

/-! ### The guard of the frame instructions (R122) -/

/-- Every frame row of the opcode table runs under the guard `whenDue`, which refuses a frame that is not due. -/
theorem exec_frame_of_not_due {i : Instr} {s : State} (h : s.frameDue ≠ some i)
    (hframe : (∃ b, i = .cfgbaud b) ∨ (∃ d, i = .datawr d) ∨ i = .datard ∨ (∃ r, i = .datarsp r) ∨ (∃ f, i = .rd f) ∨
      (∃ f, i = .wr f) ∨ (∃ f, i = .bulk f) ∨ (∃ f, i = .k3 f)) :
    exec i s = .refused .frameNotDue := by
  obtain ⟨b, rfl⟩ | ⟨d, rfl⟩ | rfl | ⟨r, rfl⟩ | ⟨f, rfl⟩ | ⟨f, rfl⟩ | ⟨f, rfl⟩ | ⟨f, rfl⟩ := hframe <;>
    exact if_neg h

/-- Where a received frame decodes to a class row, the row's direction is the receive direction. -/
theorem dir_of_decodeRx_class {c : Cfg} {g : Frame} {f : ClassFrame}
    (h : decodeRx c g = .rd f ∨ decodeRx c g = .wr f ∨ decodeRx c g = .bulk f ∨ decodeRx c g = .k3 f) :
    f.dir = .rx := by
  have hclass : classOf .rx g = f := by
    unfold decodeRx decodeClass at h
    split_ifs at h <;> simp at h <;> exact h
  rw [← hclass, classOf]

/-- A frame of a class row in the transmit direction is never due: the block sends none (R122). -/
theorem not_due_of_transmit_class {s : State} {i : Instr} {f : ClassFrame} (hf : f.dir = .tx)
    (hi : i = .rd f ∨ i = .wr f ∨ i = .bulk f ∨ i = .k3 f) : s.frameDue ≠ some i := by
  intro hdue
  obtain ⟨-, rfl⟩ | ⟨-, rfl⟩ | ⟨-, rfl⟩ | ⟨-, rfl⟩ := frameDue_cases hdue
  · simp at hi
  · simp at hi
  · simp at hi
  · exact nomatch hf.symm.trans (dir_of_decodeRx_class hi)

/-- Settles O38: the guard refuses what is not due, and `frameDue` says what is due, of which no frame is of a class row
in the transmit direction. -/
theorem rawFramesCannotBeInjected : Obligations.RawFramesCannotBeInjected := by
  intro s i hframe
  exact ⟨fun h => exec_frame_of_not_due h hframe, frameDue_cases,
    fun f hf hi => exec_frame_of_not_due (not_due_of_transmit_class hf hi) hframe⟩

/-! ### The reserved select (R126) -/

/-- Settles O25: the one-byte call 07 decodes to the reserved row, whose meaning is the refusal (U8). -/
theorem reservedSelectIsRefused : Obligations.ReservedSelectIsRefused := by
  intro s
  have hdecode : decodeCall [0x07] = .ok .reserved7 := by decide
  exact ⟨hdecode, rfl⟩

/-! ### The rows of the opcode table, field by field (R113, R131) -/

/-- Two concatenations of the same shape are equal where both parts are. -/
theorem bitVec_append_eq_append_iff {m n : Nat} {x x' : BitVec m} {y y' : BitVec n} :
    x ++ y = x' ++ y' ↔ x = x' ∧ y = y' := by
  refine ⟨fun h => ?_, fun ⟨hx, hy⟩ => hx ▸ hy ▸ rfl⟩
  have hx := congrArg (BitVec.extractLsb' n m) h
  have hy := congrArg (BitVec.extractLsb' 0 n) h
  rw [BitVec.extractLsb'_append_eq_left, BitVec.extractLsb'_append_eq_left] at hx
  rw [BitVec.extractLsb'_append_eq_right, BitVec.extractLsb'_append_eq_right] at hy
  exact ⟨hx, hy⟩

/-- A row over cc, page and offset matches where each field does under its own mask. -/
theorem frameRow_matches {cc page offset ccMask pageMask offsetMask : Word} {f : Frame} :
    (frameRow cc page offset ccMask pageMask offsetMask).matches f = true ↔
      f.cc &&& ccMask = cc ∧ f.page &&& pageMask = page ∧ f.offset &&& offsetMask = offset := by
  have hmasked : header f &&& (frameRow cc page offset ccMask pageMask offsetMask).mask =
      (f.cc &&& ccMask) ++ ((f.page &&& pageMask) ++ (f.offset &&& offsetMask)) :=
    BitVec.and_append.trans (congrArg _ BitVec.and_append)
  rw [FrameRow.matches, beq_iff_eq, hmasked]
  exact bitVec_append_eq_append_iff.trans (and_congr_right' bitVec_append_eq_append_iff)

/-- The DATARSP row looks at the page alone (R117). -/
theorem rowDatarsp_matches {c : Cfg} {f : Frame} : (rowDatarsp c).matches f = true ↔ f.page = c.pageData := by
  have hall : f.page &&& 0xFFFF = f.page := BitVec.and_allOnes
  rw [rowDatarsp, frameRow_matches, hall]
  simp

/-! ### The inspection (R121, R188) -/

/-- The inbound copy always completes: what it pushes fits (R188). -/
theorem inboundCopy_eq (cnt : Nat) (bytes : List Byte) (s : State) :
    inboundCopy cnt bytes s = .next { s with
      inF := { s.inF with bytes := s.inF.bytes ++ bytes.take (inboundCount s.cfg cnt s.inF.free) }
      tpc := .finish
      trace := s.trace ++ if inboundCount s.cfg cnt s.inF.free < cnt then
        [.event (.inboundTruncated (cnt - inboundCount s.cfg cnt s.inF.free))] else [] } := by
  have hfit : inboundCount s.cfg cnt s.inF.free ≤ s.inF.free := by
    unfold inboundCount
    omega
  have hpush := push_eq_some.mpr ⟨(List.length_take_le _ bytes).trans hfit, rfl⟩
  simp [inboundCopy, hpush, raiseIf_eq_withTrace, State.goto]

/-- At `T_INSPECT` TICKER's turn runs what RXF decodes to. -/
theorem tickerTurn_of_inspect {s : State} (ht : s.tpc = .inspect) :
    tickerTurn s = exec (decodeRx s.cfg s.rxf) s := by
  simp [tickerTurn, State.frameDue, ht]

/-- Without RX_CHECK the page alone decides between the copy and the event, and the copy reads the offset and the
payload (R121, R188). -/
theorem inspect_without_rxCheck {s : State} (ht : s.tpc = .inspect) (hc : s.cfg.rxCheck = false) :
    tickerTurn s = if s.rxf.page = s.cfg.pageData then
        inboundCopy s.rxf.offset.toNat (unpackBytes s.rxf.payload s.cfg.payloadBytes) s
      else .next (s.skipCopy .pageMismatch) := by
  have hreject : s.checksumRejects = false := by simp [State.checksumRejects, hc]
  have hdue : s.frameDue = some (decodeRx s.cfg s.rxf) := by simp [State.frameDue, ht]
  rw [tickerTurn_of_inspect ht]
  by_cases hpage : s.rxf.page = s.cfg.pageData
  · have hrsp : decodeRx s.cfg s.rxf = .datarsp (rspOf s.rxf) := if_pos (rowDatarsp_matches.mpr hpage)
    rw [hrsp] at hdue
    rw [hrsp, exec, execDatarsp, whenDue_of_due hdue, if_pos hpage, hreject]
    rfl
  · have hclass : decodeRx s.cfg s.rxf = decodeClass s.cfg .rx s.rxf := if_neg (mt rowDatarsp_matches.mp hpage)
    rw [hclass] at hdue
    rw [hclass, exec_decodeClass hdue, if_neg hpage, State.ignoreFrame, hreject]
    rfl

/-- Without RX_CHECK the inspection commutes with a change of cc and of the checksum word (R121). -/
theorem inspect_ignores_cc_and_cksum {s t : State} (ht : s.tpc = .inspect) (hc : s.cfg.rxCheck = false)
    (h : tickerTurn s = .next t) (cc ck : Word) :
    tickerTurn { s with rxf := { s.rxf with cc := cc, cksum := ck } } =
      .next { t with rxf := { s.rxf with cc := cc, cksum := ck } } := by
  rw [inspect_without_rxCheck ht hc, inboundCopy_eq] at h
  rw [inspect_without_rxCheck (s := { s with rxf := { s.rxf with cc := cc, cksum := ck } }) ht hc, inboundCopy_eq]
  split_ifs at h ⊢ <;> cases h <;> rfl

/-- Settles O39: the step is the inspection, which completes and writes IN, `tpc` and the history only, and which
commutes with a change of the fields it does not read. -/
theorem noReceivedFrameIsIllegal : Obligations.NoReceivedFrameIsIllegal := by
  intro s ts hwf hs ht
  obtain ⟨t, hrun, hinspected⟩ := inspect_completes (s := { s with sched := ts }) ht
  have hturn : tickerTurn { s with sched := ts } = .next t :=
    (tickerTurn_of_inspect (s := { s with sched := ts }) ht).trans hrun
  obtain ⟨q, v, os, -, rfl⟩ := inspected_eq hinspected
  refine ⟨_, (step_of_scheduled hwf hs).trans hturn, rfl, rfl, rfl, rfl, fun hc cc ck => ?_⟩
  have hother := step_of_scheduled (s := { s with rxf := { s.rxf with cc := cc, cksum := ck } }) hwf hs
  exact hother.trans (inspect_ignores_cc_and_cksum (s := { s with sched := ts }) ht hc hturn cc ck)

/-! ### The frames on the bus (R122, R251) -/

/-- Seal makes Verify true (R227, R228). -/
theorem verify_sealFrame (c : Cfg) (f : Frame) : verify c (sealFrame c f) = true := beq_self_eq_true _

/-- The three frames the block sends are sealed (R246, R248, R249). -/
theorem verify_of_sendable {c : Cfg} {f : Frame} (h : sendable c f) : verify c f = true := by
  obtain ⟨b, rfl⟩ | ⟨d, -, rfl⟩ | rfl := h <;> exact verify_sealFrame c _

/-- Between the two states one frame is sent and nothing else recorded: one of the three, under the lock, and TXF holds
it. -/
structure SendsOne (s t : State) (f : Frame) : Prop where
  obs : newObs s t = [.sent f]
  txf : t.txf = f
  lockBefore : s.lock = .own
  lockAfter : t.lock = .own
  sendable : sendable s.cfg f

/-- A bus transaction of one of the three frames, under the lock, sends it (R78). -/
theorem sendsOne_of_xfer {s : State} {q : Fifo} {f : Frame} {x : TickStep} (hl : s.lock = .own)
    (hf : sendable s.cfg f) : SendsOne s ((({ s with outF := q } : State).afterXfer f).goto x) f :=
  ⟨newObs_of_append rfl, rfl, hl, hl, hf⟩

/-- The inspection sends no frame. -/
theorem inspected_sends_none {s t : State} (h : s.inspected t) (f : Frame) : .sent f ∉ newObs s t := by
  obtain ⟨e, rfl⟩ | ⟨m, -, rfl⟩ := h
  · simp [newObs]
  · rw [newObs_of_append rfl]
    split_ifs <;> simp

/-- A micro-step that sends a frame is one of the three transfer steps. -/
theorem micro_sendsOne {s t : State} {f : Frame} (h : tickerTurn s = .next t) (hf : .sent f ∈ newObs s t) :
    SendsOne s t f := by
  have hfound : ∀ {g : Frame}, SendsOne s t g → SendsOne s t f := by
    intro g hg
    have hmem : Obs.sent f ∈ [Obs.sent g] := hg.obs ▸ hf
    cases List.mem_singleton.mp hmem
    exact hg
  have hquiet : t.trace = s.trace → SendsOne s t f := fun htrace => absurd hf (by simp [newObs, htrace])
  rcases tickerTurn_cases h with ⟨-, rfl⟩ | ⟨-, hl, rfl⟩ | ⟨-, rfl⟩ | ⟨-, -, rfl⟩ | ⟨-, rfl⟩ | ⟨-, hl, -, hn, rfl⟩ |
    ⟨-, rfl⟩ | ⟨-, hl, rfl⟩ | ⟨-, rfl⟩ | ⟨-, -, rfl⟩ | ⟨-, hi⟩ | ⟨-, rfl⟩
  · exact hquiet rfl
  · exact hfound (sendsOne_of_xfer (q := s.outF) hl (.inl ⟨_, rfl⟩))
  · exact hquiet rfl
  · exact hquiet rfl
  · exact hquiet rfl
  · have hlen : (s.outF.bytes.take s.ntx).length ≤ s.cfg.payloadBytes := (List.length_take_le _ _).trans hn
    exact hfound (sendsOne_of_xfer hl (.inr (.inl ⟨_, hlen, rfl⟩)))
  · exact hquiet rfl
  · exact hfound (sendsOne_of_xfer (q := s.outF) hl (.inr (.inr rfl)))
  · exact hquiet rfl
  · exact hquiet rfl
  · exact absurd hf (inspected_sends_none hi f)
  · exact hquiet rfl

/-- The entry step of TICK sends no frame. -/
theorem entry_sends_none {s t : State} (h : EntryEffect s t) (f : Frame) : .sent f ∉ newObs s t := by
  cases h with
  | recorded o hq =>
    rw [newObs_of_append rfl, List.mem_singleton]
    rintro rfl
    cases hq
  | handshakeEntered | handshakeRefused | exchangeEntered | exchangeRefused => simp [newObs]

/-- While TICKER rests no frame is sent. -/
theorem rests_sends_none {s t : State} (h : TickerRests s t) (f : Frame) : .sent f ∉ newObs s t :=
  fun hf => nomatch h.quiet _ hf

/-- A step that sends a frame is a micro-step of TICKER's that sends it. -/
theorem step_sendsOne {s t : State} {f : Frame} (h : step s = .next t) (hf : .sent f ∈ newObs s t) :
    SendsOne s t f := by
  revert hf
  apply step_elim h
  case micro =>
    intro r t h hf
    obtain ⟨hobs, htxf, hl, hl', hsend⟩ := micro_sendsOne h hf
    exact ⟨hobs, htxf, hl, hl', hsend⟩
  case strobe => exact fun r hf => absurd hf (entry_sends_none (tickEntry_effect { s with sched := r }) f)
  case call =>
    intro r call rest i _ _ hd hn t h hf
    exact absurd hf (rests_sends_none (call_tickerRests (call_effect hd hn h).2) f)
  case done => exact fun r _ _ hf => absurd hf (rests_sends_none (beginComplete_tickerRests { s with sched := r }) f)
  all_goals
    intros
    simp_all [newObs]

/-- Settles O55: the frame is sent by one of the three transfer steps, and sealed as its constructor ends with Seal. -/
theorem sentFramesAreSealedAndLocked : Obligations.SentFramesAreSealedAndLocked := by
  intro s t h f hf
  obtain ⟨hobs, htxf, hl, hl', hsend⟩ := step_sendsOne h hf
  exact ⟨hobs, htxf, hl, hl', verify_of_sendable hsend, hsend⟩

end Sys2Proof.Machine
end

section
/-! SUPPORT. BEGIN's wait and its completion (R145), and PASSTHROUGH mode, in which no step writes the block (R140,
R285). -/

namespace Sys2Proof.Machine

/-! ### APP's turn inside BEGIN -/

/-- While PENDING is 1, APP's turn inside BEGIN re-polls and changes nothing (R145). -/
theorem appTurn_of_wait_pending {s : State} (hb : s.bpc = .wait) (hp : s.pending = true) : appTurn s = .next s := by
  simp [appTurn, hb, hp]

/-- Once PENDING is 0, APP's turn inside BEGIN completes it (R145). -/
theorem appTurn_of_wait_served {s : State} (hb : s.bpc = .wait) (hp : s.pending = false) :
    appTurn s = .next s.beginComplete := by
  simp [appTurn, hb, hp]

/-- Served and with both buffers allocated, APP's turn enters BRIDGED mode (R145). -/
theorem appTurn_of_wait_allocated {s : State} (hb : s.bpc = .wait) (hp : s.pending = false)
    (hcaps : s.outF.cap ≠ 0 ∧ s.inF.cap ≠ 0) :
    appTurn s = .next { s with mode := .bridged, bpc := .idle, trace := s.trace ++ [.returned .none] } := by
  rw [appTurn_of_wait_served hb hp, State.beginComplete, if_pos hcaps]
  rfl

/-- Served but with a buffer that was not allocated, APP's turn leaves MODE as it is (R145). -/
theorem appTurn_of_wait_not_allocated {s : State} (hb : s.bpc = .wait) (hp : s.pending = false)
    (hcaps : s.outF.cap = 0 ∨ s.inF.cap = 0) :
    appTurn s = .next { s with bpc := .idle, trace := s.trace ++ [.returned .none] } := by
  have hnot : ¬(s.outF.cap ≠ 0 ∧ s.inF.cap ≠ 0) := by tauto
  rw [appTurn_of_wait_served hb hp, State.beginComplete, if_neg hnot]
  rfl

/-! ### The wait -/

/-- TICK's entry step does not write `bpc` (R37). -/
theorem entry_bpc {s t : State} (h : EntryEffect s t) : t.bpc = s.bpc := by
  cases h <;> rfl

/-- A micro-step does not write `bpc` (R37). -/
theorem micro_bpc {s t : State} (h : MicroEffect s t) : t.bpc = s.bpc := by
  cases h <;> rfl

/-- While the request is pending no step ends APP's wait: the completion needs PENDING at 0, and no call is issued from
inside BEGIN. -/
theorem step_keeps_wait {s t : State} (hb : s.bpc = .wait) (hp : s.pending = true) (h : step s = .next t) :
    t.bpc = .wait := by
  apply step_elim h
  case done => exact fun _ _ hserved => nomatch hp.symm.trans hserved
  case call => exact fun _ _ _ _ hidle => nomatch hb.symm.trans hidle
  case strobe => exact fun r => (entry_bpc (tickEntry_effect { s with sched := r })).trans hb
  case micro => exact fun r t h => (micro_bpc (tickerTurn_effect h)).trans hb
  all_goals
    intros
    exact hb

/-- Settles O17: APP's turn inside BEGIN case by case, and over every step the wait that only `T_CFG_DONE` can end, as
it alone clears PENDING. -/
theorem beginWaitsThenCompletes : Obligations.BeginWaitsThenCompletes := by
  refine ⟨fun s ts hwf hs hb => ?_, fun s t hb hp h => ?_⟩
  · rw [step_of_scheduled hwf hs]
    exact ⟨appTurn_of_wait_pending (s := { s with sched := ts }) hb,
      appTurn_of_wait_allocated (s := { s with sched := ts }) hb,
      appTurn_of_wait_not_allocated (s := { s with sched := ts }) hb⟩
  · exact ⟨step_keeps_wait hb hp h, (pendingHasTwoWriters s t h).2 hp⟩

/-! ### PASSTHROUGH mode -/

/-- In PASSTHROUGH mode APP is not inside BEGIN, since it waits in UNINIT mode only (R59 (f)). -/
theorem bpc_idle_of_passthrough {s : State} (hi : s.Inv) (hm : s.mode = .passthrough) : s.bpc = .idle := by
  obtain ⟨-, -, -, -, -, -, hwait, -⟩ := hi
  cases hb : s.bpc with
  | idle => rfl
  | wait => exact nomatch hm.symm.trans (hwait hb)

/-- In PASSTHROUGH mode no tick is in progress: a handshake has BEGIN waiting, and an exchange runs in BRIDGED mode. -/
theorem tpc_idle_of_passthrough {s : State} (hi : s.Inv) (hm : s.mode = .passthrough) : s.tpc = .idle := by
  have hb := bpc_idle_of_passthrough hi hm
  obtain ⟨-, -, -, -, -, -, -, ⟨hhand, hpost⟩, hbridged, -⟩ := hi
  have hnotHandshake : s.tpc.inHandshake ≠ true := fun h => nomatch hb.symm.trans (hpost (hhand h))
  have hnotExchange : s.tpc.inExchange ≠ true := fun h => nomatch hm.symm.trans (hbridged h)
  revert hnotHandshake hnotExchange
  cases s.tpc <;> simp [TickStep.inHandshake, TickStep.inExchange]

/-- A call in PASSTHROUGH mode makes at most a draw and records what is none of the bus (R140, R150). -/
theorem call_of_passthrough {call : List Byte} {i : Instr} {s t : State} (hm : s.mode = .passthrough)
    (hd : decodeCall call = .ok i) (hn : i ≠ .tick) (h : exec i s = .next t) :
    ∃ (d : Drawn) (os : List Obs), (∀ o ∈ os, o.onBus = false) ∧
      t = { s with drawn := d, trace := s.trace ++ os } := by
  have hdelegated : ∀ (d : Drawn) (del : Delegation) (r : Result),
      t = (({ s with drawn := d } : State).emit (.delegated del)).emit (.returned r) →
      ∃ (d : Drawn) (os : List Obs), (∀ o ∈ os, o.onBus = false) ∧
        t = { s with drawn := d, trace := s.trace ++ os } :=
    fun d del r ht => ⟨d, _, by simp [Obs.onBus], ht.trans (emit_emit ..)⟩
  rcases (call_cases hd hn h).2 with ⟨b, rx, tx, ⟨hu, -⟩ | ⟨hu, -⟩ | ⟨-, ht⟩⟩ | ⟨d, -, ⟨-, ht⟩ | ⟨hne, -⟩⟩ |
    ⟨len, ⟨-, ht⟩ | ⟨hne, -⟩⟩ | ⟨b, ht⟩ | ⟨-, ht⟩ | ⟨hne, -⟩ | ⟨-, ht⟩ | ⟨-, hne, -⟩
  · exact nomatch hm.symm.trans hu
  · exact nomatch hm.symm.trans hu
  · exact hdelegated s.drawn _ _ ht
  · exact hdelegated s.drewUartAccepted.drawn _ _ ht
  · exact absurd hm hne
  · exact hdelegated s.drewUartBytes.drawn _ _ ht
  · exact absurd hm hne
  · exact ⟨s.drawn, [.returned (.bool b)], by simp [Obs.onBus], ht⟩
  · exact hdelegated s.drewUartAcquired.drawn _ _ ht
  · exact absurd hm hne
  · exact hdelegated s.drawn _ _ ht
  · exact absurd hm hne

/-- The strobe in PASSTHROUGH mode is delegated (R172). -/
theorem tickEntry_of_passthrough {s : State} (ht : s.tpc = .idle) (hm : s.mode = .passthrough) :
    s.tickEntry = s.emit (.delegated .tick) := by
  simp [State.tickEntry, ht, hm]

/-- Where no tick is in progress TICKER's micro-step changes nothing. -/
theorem tickerTurn_of_idle {s : State} (ht : s.tpc = .idle) : tickerTurn s = .next s := by
  simp [tickerTurn, State.frameDue, microStep, ht]

/-- Recording what is none of the bus sends no frame. -/
theorem sent_not_mem_newObs {s t : State} {os : List Obs} (htrace : t.trace = s.trace ++ os)
    (hq : ∀ o ∈ os, o.onBus = false) (f : Frame) : .sent f ∉ newObs s t := by
  rw [newObs_of_append htrace]
  exact fun hf => nomatch hq _ hf

/-- Settles O58: in PASSTHROUGH mode neither BEGIN nor a tick is in progress, so a step is a call or a strobe, which are
delegated or answer, or ENV's turn, which never touches OWN. -/
theorem passThroughFreezesTheBlock : Obligations.PassThroughFreezesTheBlock := by
  intro s t hi hm h
  have hb := bpc_idle_of_passthrough hi hm
  have ht := tpc_idle_of_passthrough hi hm
  have hsilent : ∀ {t : State}, t.trace = s.trace → ∀ f : Frame, .sent f ∉ newObs s t :=
    fun htrace f hf => nomatch quiet_of_same_trace htrace _ hf
  apply step_elim h
  case stay => exact fun _ => ⟨rfl, Iff.rfl, hsilent rfl⟩
  case done => exact fun _ hwait => nomatch hb.symm.trans hwait
  case call =>
    intro r call rest i _ _ hd hn t h
    obtain ⟨d, os, hq, rfl⟩ := call_of_passthrough (s := { s with sched := r, app := rest }) hm hd hn h
    exact ⟨rfl, Iff.rfl, sent_not_mem_newObs rfl hq⟩
  case strobe =>
    intro r
    rw [tickEntry_of_passthrough (s := { s with sched := r }) ht hm]
    exact ⟨rfl, Iff.rfl, sent_not_mem_newObs (os := [.delegated .tick]) rfl (by simp [Obs.onBus])⟩
  case micro =>
    intro r t h
    cases (tickerTurn_of_idle (s := { s with sched := r }) ht).symm.trans h
    exact ⟨rfl, Iff.rfl, hsilent rfl⟩
  case advance => exact fun _ _ => ⟨rfl, Iff.rfl, hsilent rfl⟩
  case taken => exact fun _ hl => ⟨rfl, by simp [hl], hsilent rfl⟩
  case released => exact fun _ hl => ⟨rfl, by simp [hl], hsilent rfl⟩

end Sys2Proof.Machine
end

section
/-! SUPPORT. A tick without interleaving (R128), micro-step by micro-step in the forward direction, and the tick that
serves the baud request (R146, R173 to R176). -/

namespace Sys2Proof.Machine

/-! ### Running a tick -/

/-- A tick that has returned stays where it is. -/
theorem tickRun_of_idle {s : State} (k : Nat) (ht : s.tpc = .idle) : tickRun k s = .next s := by
  cases k <;> simp [tickRun, ht]

/-- A run of the tick goes on after TICKER's next micro-step, which is none once the tick has returned. -/
theorem tickRun_of_turn {s t : State} (k : Nat) (h : tickerTurn s = .next t) : tickRun (k + 1) s = tickRun k t := by
  by_cases ht : s.tpc = .idle
  · cases (tickerTurn_of_idle ht).symm.trans h
    rw [tickRun_of_idle _ ht, tickRun_of_idle _ ht]
  · simp [tickRun, ht, h]

/-- The whole tick is its entry step and then the run of its micro-steps. -/
theorem wholeTick_eq (s : State) : wholeTick s = tickRun 8 s.tickEntry := rfl

/-! ### The handshake (R173 to R176) -/

/-- A pending request with the lock free starts the handshake (R173). -/
theorem tickEntry_of_pending {s : State} (ht : s.tpc = .idle) (hm : s.mode ≠ .passthrough) (hp : s.pending = true)
    (hl : s.lock = .free) : s.tickEntry = s.takeLock.goto .cfgXfer := by
  simp [State.tickEntry, State.enterHandshake, State.tryLock, State.lockFree, ht, hm, hp, hl]

/-- `T_CFG_XFER` sends the baud-configuration frame (R174). -/
theorem tickerTurn_of_cfgXfer {s : State} (ht : s.tpc = .cfgXfer) (hl : s.lock = .own) :
    tickerTurn s = .next ((s.afterXfer (buildCfgBaud s.cfg s.baud)).goto .cfgSettle) := by
  have hdue : s.frameDue = some (.cfgbaud s.baud) := by simp [State.frameDue, ht]
  simp [tickerTurn, hdue, exec, execCfgbaud, whenDue_of_due hdue, busXfer_of_own hl]

/-- `T_CFG_SETTLE` moves on (R175). -/
theorem tickerTurn_of_cfgSettle {s : State} (ht : s.tpc = .cfgSettle) : tickerTurn s = .next (s.goto .cfgDone) := by
  simp [tickerTurn, State.frameDue, microStep, State.cfgSettle, ht]

/-- `T_CFG_DONE` gives up the lock and clears the request, and the tick returns (R176). -/
theorem tickerTurn_of_cfgDone {s : State} (ht : s.tpc = .cfgDone) (hl : s.lock = .own) :
    tickerTurn s = .next { s with lock := .free, pending := false, tpc := .idle } := by
  have hunlock := unlock_eq_next.mpr ⟨hl, rfl⟩
  simp [tickerTurn, State.frameDue, microStep, cfgDone, ht, hunlock, State.clearPending, State.goto]

/-- From the entry into the handshake the tick returns in three micro-steps. -/
theorem tickRun_handshake (s : State) (k : Nat) :
    tickRun (k + 3) (s.takeLock.goto .cfgXfer) = .next { s.afterXfer (buildCfgBaud s.cfg s.baud) with
      lock := .free, pending := false, tpc := .idle } := by
  rw [tickRun_of_turn _ (tickerTurn_of_cfgXfer rfl rfl), tickRun_of_turn _ (tickerTurn_of_cfgSettle rfl),
    tickRun_of_turn _ (tickerTurn_of_cfgDone rfl rfl), tickRun_of_idle _ rfl]
  rfl

/-- A whole tick that finds the request pending and the lock free is the handshake (R146). -/
theorem wholeTick_of_pending {s : State} (ht : s.tpc = .idle) (hm : s.mode ≠ .passthrough) (hp : s.pending = true)
    (hl : s.lock = .free) :
    wholeTick s = .next { s.afterXfer (buildCfgBaud s.cfg s.baud) with
      lock := .free, pending := false, tpc := .idle } := by
  rw [wholeTick_eq, tickEntry_of_pending ht hm hp hl]
  exact tickRun_handshake s 5

/-- While the request is pending the mode is UNINIT: BEGIN waits for it (R59 (f), R60). -/
theorem uninit_of_pending {s : State} (hi : s.Inv) (hp : s.pending = true) : s.mode = .uninit := by
  obtain ⟨-, -, -, -, -, -, hwait, ⟨-, hpost⟩, -⟩ := hi
  exact hwait (hpost hp)

/-- Settles O48: the entry step takes the free lock for the handshake, which sends one frame and ends with the request
served. -/
theorem oneTickServesTheBaudRequest : Obligations.OneTickServesTheBaudRequest := by
  intro s hi ht hp hl
  have hm : s.mode ≠ .passthrough := by simp [uninit_of_pending hi hp]
  exact ⟨_, wholeTick_of_pending ht hm hp hl, rfl, rfl, rfl, rfl, rfl, rfl, rfl, rfl, rfl, rfl, rfl⟩

end Sys2Proof.Machine
end

section
/-! SUPPORT. The mode gate, operation by operation: the clamp (R144), BEGIN's entry (R142, R143, R147), READ and WRITE
(R149, R153), ISEXT (R150), TRYACQ and REL (R151, R152). -/

namespace Sys2Proof.Machine

/-! ### The clamp (R144) -/

/-- Settles O9: both branches of the clamp, and the rule's examples on either side of the threshold. -/
theorem clampRaisesBelow1024 : Obligations.ClampRaisesBelow1024 := by
  refine ⟨fun c => ⟨fun hlow => if_pos hlow, fun hhigh => if_neg ?_⟩, by decide⟩
  exact Nat.not_lt.mpr hhigh

/-- The event of a raised capacity has the clamp's threshold (R143, R144). -/
theorem clampRaises_iff {c : Nat} : clampRaises c = true ↔ c < 1024 := decide_eq_true_iff

/-! ### BEGIN (R141 to R143, R147) -/

/-- Settles O14: the pass-through branch of BEGIN's entry, with its two records as one. -/
theorem beginPassThroughBranch : Obligations.BeginPassThroughBranch := by
  intro s b rx tx hb hm he
  refine execBegin_eq_next.mpr ⟨hb, .inl ⟨hm, he, ?_⟩⟩
  rw [State.beginPassThrough, State.delegate_eq, State.returns_eq, emit_emit]
  rfl

/-- Settles O15: the posting step of BEGIN's entry; its events are those of `beginPost_eq`, with the conditions as
propositions. -/
theorem beginPostsBaudRequest : Obligations.BeginPostsBaudRequest := by
  intro s b rx tx hb hm he
  refine ⟨_, _, rfl, rfl, execBegin_eq_next.mpr ⟨hb, .inr (.inl ⟨hm, he, ?_⟩)⟩⟩
  rw [beginPost_eq]
  simp only [clampRaises_iff, Bool.or_eq_true, beq_iff_eq, List.append_assoc]
  rfl

/-- In BRIDGED mode BEGIN is refused (R147, U4). -/
theorem execBegin_of_bridged {s : State} (b : Word32) (rx tx : Nat) (hb : s.bpc = .idle) (hm : s.mode = .bridged) :
    execBegin b rx tx s = .refused .beginWhileBridged := by
  simp [execBegin, whenAppFree_of_idle hb, hm]

/-- Settles O16: the delegated and the refused case of BEGIN's entry. -/
theorem beginOutsideUninit : Obligations.BeginOutsideUninit := by
  intro s b rx tx hb
  refine ⟨fun hm => execBegin_eq_next.mpr ⟨hb, .inr (.inr ⟨hm, ?_⟩)⟩, execBegin_of_bridged b rx tx hb⟩
  exact (emit_emit ..).symm

/-! ### READ, WRITE and ISEXT (R149, R150, R153) -/

/-- Outside PASSTHROUGH mode READ takes the oldest bytes of IN (R149). -/
theorem execRead_of_not_passthrough {s : State} (len : Nat) (hb : s.bpc = .idle) (hm : s.mode ≠ .passthrough) :
    execRead len s = .next { s with
      inF := { s.inF with bytes := s.inF.bytes.drop (min len s.inF.bytes.length) }
      trace := s.trace ++ [.returned (.bytes (s.inF.bytes.take (min len s.inF.bytes.length)))] } :=
  execRead_eq_next.mpr ⟨hb, .inr ⟨hm, readFifo_eq len s⟩⟩

/-- In PASSTHROUGH mode READ is delegated, and answers with a draw (R153). -/
theorem execRead_of_passthrough {s : State} (len : Nat) (hb : s.bpc = .idle) (hm : s.mode = .passthrough) :
    execRead len s = .next { s.drewUartBytes with
      trace := s.trace ++ [.delegated (.read len), .returned (.bytes s.uartBytes)] } :=
  execRead_eq_next.mpr ⟨hb, .inl ⟨hm, (emit_emit ..).symm⟩⟩

/-- In PASSTHROUGH mode WRITE is delegated, and answers with a draw (R153). -/
theorem execWrite_of_passthrough {s : State} (d : List Byte) (hb : s.bpc = .idle) (hm : s.mode = .passthrough) :
    execWrite d s = .next { s.drewUartAccepted with
      trace := s.trace ++ [.delegated (.write d), .returned (.accepted s.uartAccepted)] } :=
  execWrite_eq_next.mpr ⟨hb, .inl ⟨hm, (emit_emit ..).symm⟩⟩

/-- READ from an empty IN returns no byte and changes nothing. -/
theorem execRead_of_empty {s : State} (len : Nat) (hb : s.bpc = .idle) (hm : s.mode ≠ .passthrough)
    (he : s.inF.bytes = []) : execRead len s = .next { s with trace := s.trace ++ [.returned (.bytes [])] } := by
  have hsame : ({ s.inF with bytes := [] } : Fifo) = s.inF := by rw [← he]
  rw [execRead_of_not_passthrough len hb hm, he, List.drop_nil, List.take_nil, hsame]

/-- Settles O19: READ on the FIFO, delegated, and on the FIFO that the invariant has empty in UNINIT mode. -/
theorem readReturnsOldestBytes : Obligations.ReadReturnsOldestBytes := by
  intro s len hb
  refine ⟨execRead_of_not_passthrough len hb, execRead_of_passthrough len hb, fun hm hi => ?_⟩
  obtain ⟨-, -, -, -, -, -, -, -, -, -, hempty, -⟩ := hi
  exact execRead_of_empty len hb (by simp [hm]) (hempty (by simp [hm]))

/-- Settles O20: both operations are delegated, and a draw is no state of the block. -/
theorem passThroughDelegatesWriteAndRead : Obligations.PassThroughDelegatesWriteAndRead := by
  intro s hb hm
  exact ⟨fun d => execWrite_of_passthrough d hb hm, fun len => execRead_of_passthrough len hb hm, rfl, rfl⟩

/-- ISEXT answers whether MODE is PASSTHROUGH (R150). -/
theorem execIsext_of_free {s : State} (hb : s.bpc = .idle) :
    execIsext s = .next { s with trace := s.trace ++ [.returned (.bool (s.mode == .passthrough))] } :=
  execIsext_eq_next.mpr ⟨hb, rfl⟩

/-- Settles O21: the answer in the two cases, the second of which is that of the reset state. -/
theorem isextReportsPassThrough : Obligations.IsextReportsPassThrough := by
  refine ⟨fun s hb hm => ?_, fun s hb hm => ?_, execIsext_of_free rfl⟩
  · have hanswer : (s.mode == .passthrough) = true := beq_iff_eq.mpr hm
    rw [← hanswer]
    exact execIsext_of_free hb
  · have hanswer : (s.mode == .passthrough) = false := beq_eq_false_iff_ne.mpr hm
    rw [← hanswer]
    exact execIsext_of_free hb

/-! ### TRYACQ and REL (R151, R152) -/

/-- Settles O22: TRYACQ's three ways, of which two take no lock. -/
theorem tryacqTakesOnlyAFreeLock : Obligations.TryacqTakesOnlyAFreeLock := by
  intro s hb
  refine ⟨fun hm hl => ?taken, fun hm hl => ?failed, fun hm => ?delegated⟩
  case taken => exact execTryacq_eq_next.mpr ⟨hb, .inr (.inl ⟨hm, hl, rfl⟩)⟩
  case failed => exact execTryacq_eq_next.mpr ⟨hb, .inr (.inr ⟨hm, hl, rfl⟩)⟩
  case delegated => exact execTryacq_eq_next.mpr ⟨hb, .inl ⟨hm, (emit_emit ..).symm⟩⟩

/-- Outside PASSTHROUGH mode REL is refused unless APP holds the lock and no tick is in progress (R152, U5). -/
theorem execRel_of_not_held {s : State} (hb : s.bpc = .idle) (hm : s.mode ≠ .passthrough)
    (h : s.lock ≠ .own ∨ s.tpc ≠ .idle) : execRel s = .refused .relWithoutAcquire := by
  have hrefused : release s = .refused .relWithoutAcquire := if_neg (by tauto)
  rw [execRel, whenAppFree_of_idle hb]
  cases hmode : s.mode with
  | passthrough => exact absurd hmode hm
  | uninit => exact hrefused
  | bridged => exact hrefused

/-- Settles O23: REL's two ways, and its refusal outside its precondition. -/
theorem relReleasesAppsLock : Obligations.RelReleasesAppsLock := by
  intro s hb
  refine ⟨fun hm hl ht => ?freed, fun hm => execRel_of_not_held hb hm, fun hm => ?delegated⟩
  case freed => exact execRel_eq_next.mpr ⟨hb, .inr ⟨hm, hl, ht, rfl⟩⟩
  case delegated => exact execRel_eq_next.mpr ⟨hb, .inl ⟨hm, (emit_emit ..).symm⟩⟩

end Sys2Proof.Machine
end

section
/-! SUPPORT. The arithmetic of the tick engine: the pacing cap (R181, R182) and the elapsed time (R194). -/

namespace Sys2Proof.Machine

/-! ### The pacing cap (R181, R182) -/

/-- The poll interval of a configuration in range is between a microsecond and a second (R8). -/
theorem pollUs_bounds {c : Cfg} (h : c.wf = true) : 1 ≤ c.pollUs ∧ c.pollUs ≤ 1000000 := by
  simp only [Cfg.wf, Bool.and_eq_true, decide_eq_true_eq] at h
  obtain ⟨⟨⟨⟨⟨⟨-, hlow⟩, hhigh⟩, -⟩, -⟩, -⟩, -⟩ := h
  exact ⟨hlow, hhigh⟩

/-- The divisor of the last division is at least 1 (R181). -/
theorem ticksPerSecond_pos {c : Cfg} (h : c.wf = true) : 1 ≤ 1000000 / c.pollUs := by
  obtain ⟨hlow, hhigh⟩ := pollUs_bounds h
  exact Nat.div_pos hhigh hlow

/-- The three truncating divisions, with the constants written out. -/
theorem pacingCap_eq (c : Cfg) (b : Word32) : pacingCap c b = b.toNat / 10 / (1000000 / c.pollUs) := rfl

/-- Settles O10: the divisions are the definition's, and the example is them on numerals. -/
theorem pacingCapTruncatesInOrder : Obligations.PacingCapTruncatesInOrder := by
  refine ⟨fun c b hwf => ⟨ticksPerSecond_pos hwf, rfl⟩, fun c hpoll => ?_⟩
  rw [pacingCap_eq, hpoll]
  rfl

/-- The cap is at most the baud rate, so it has 32 bits. -/
theorem pacingCap_lt (c : Cfg) (b : Word32) : pacingCap c b < 2 ^ 32 :=
  calc pacingCap c b
    _ ≤ b.toNat / 10 := Nat.div_le_self ..
    _ ≤ b.toNat := Nat.div_le_self ..
    _ < 2 ^ 32 := b.isLt

/-- Where POLL_US divides a second, the line carries in one poll interval at least what the cap allows: ten line bits
for every byte. -/
theorem pacingCap_le_line {c : Cfg} (b : Word32) (h : 1000000 % c.pollUs = 0) :
    pacingCap c b * 10000000 ≤ b.toNat * c.pollUs := by
  have hsecond : 1000000 / c.pollUs * c.pollUs = 1000000 := Nat.div_mul_cancel (Nat.dvd_of_mod_eq_zero h)
  have hcap : pacingCap c b * (1000000 / c.pollUs) ≤ b.toNat / 10 := Nat.div_mul_le_self ..
  calc pacingCap c b * 10000000
    _ = pacingCap c b * (1000000 / c.pollUs * c.pollUs) * 10 := by rw [hsecond, Nat.mul_assoc]
    _ = pacingCap c b * (1000000 / c.pollUs) * 10 * c.pollUs := by ring
    _ ≤ b.toNat / 10 * 10 * c.pollUs := Nat.mul_le_mul_right _ (Nat.mul_le_mul_right _ hcap)
    _ ≤ b.toNat * c.pollUs := Nat.mul_le_mul_right _ (Nat.div_mul_le_self ..)

/-- Settles O11: the last quotient is 0 exactly below its divisor, and the two bounds. -/
theorem pacingCapBounds : Obligations.PacingCapBounds := by
  intro c b hwf
  have hzero : pacingCap c b = 0 ↔ b.toNat / 10 < 1000000 / c.pollUs :=
    Nat.div_eq_zero_iff_lt (ticksPerSecond_pos hwf)
  exact ⟨pacingCap_lt c b, hzero, pacingCap_le_line b⟩

/-! ### The elapsed time (R194) -/

/-- Settles O12: both timestamps are residues modulo 2^32, and so is their difference, which is small enough to be
itself. -/
theorem elapsedTimeIsModular : Obligations.ElapsedTimeIsModular := by
  intro t0 t1 hle hlt
  have hsub : BitVec.ofNat 32 t1 - BitVec.ofNat 32 t0 = BitVec.ofNat 32 (t1 - t0) := by
    rw [sub_eq_iff_eq_add, ← BitVec.ofNat_add, Nat.sub_add_cancel hle]
  rw [elapsed, hsub, BitVec.toNat_ofNat, Nat.mod_eq_of_lt hlt]

end Sys2Proof.Machine
end

section
/-! SUPPORT. The tick engine step by step, in the forward direction: the priority chain of TICK's entry step (R191),
the three transfers (R174, R183, R185), the micro-steps without a frame (R175, R176, R180, R184, R186, R187, R190) and
the inbound copy (R188). -/

namespace Sys2Proof.Machine

/-! ### The entry step (R171 to R179, R191) -/

/-- The handshake is entered where the lock is free, and otherwise the attempt is reported (R173). -/
theorem enterHandshake_eq (s : State) : s.enterHandshake =
    if s.lock = .free then { s with lock := .own, tpc := .cfgXfer }
    else { s with trace := s.trace ++ [.event (.busLockUnavailable .handshake)] } := by
  rcases tryLock_cases s with ⟨hl, hk⟩ | ⟨hl, hk⟩
  · rw [State.enterHandshake, hk, if_pos hl]
    rfl
  · rw [State.enterHandshake, hk, if_neg hl]
    rfl

/-- The exchange is entered with BUSY set where the lock is free; otherwise BUSY is 0 and the attempt is reported
(R179). -/
theorem enterExchange_eq (s : State) : s.enterExchange =
    if s.lock = .free then { s with lock := .own, busy := true, tpc := .budget }
    else { s with busy := false, trace := s.trace ++ [.event (.busLockUnavailable .exchange)] } := by
  rcases tryLock_cases s.setBusy with ⟨hl, hk⟩ | ⟨hl, hk⟩
  · rw [State.enterExchange, hk, if_pos (show s.lock = .free from hl)]
    rfl
  · rw [State.enterExchange, hk, if_neg (show s.lock ≠ .free from hl)]
    rfl

/-- The rate gate is closed while less than POLL_US has passed since LAST_TS (R178). -/
theorem gateClosed_iff {s : State} :
    s.gateClosed = true ↔ (BitVec.ofNat 32 s.clk - s.lastTs).toNat < s.cfg.pollUs := decide_eq_true_iff

/-- Settles O26: the chain is the definition's, with the two lock attempts and the rate gate as their lemmas say. -/
theorem tickEntryPriorityChain : Obligations.TickEntryPriorityChain := by
  intro s
  rw [exec, execTick, State.tickEntry, enterHandshake_eq, enterExchange_eq]
  simp only [gateClosed_iff]
  rfl

/-- A TICK before the bridge is initialised, with no request pending, raises NotInitialized (R177). -/
theorem tickEntry_of_uninit {s : State} (ht : s.tpc = .idle) (hm : s.mode = .uninit) (hp : s.pending = false) :
    s.tickEntry = s.emit (.event .notInitialized) := by
  simp [State.tickEntry, ht, hm, hp]

/-- Settles O27: the two rows of the priority chain. -/
theorem tickEarlyReturns : Obligations.TickEarlyReturns := by
  intro s ht
  exact ⟨fun hm => congrArg _ (tickEntry_of_passthrough ht hm), fun hm hp => congrArg _ (tickEntry_of_uninit ht hm hp)⟩

/-! ### The transfers (R174, R183, R185) -/

/-- TICKER's turn runs the frame instruction that is due. -/
theorem tickerTurn_of_due {s : State} {i : Instr} (h : s.frameDue = some i) : tickerTurn s = exec i s := by
  simp [tickerTurn, h]

/-- A transfer step with the lock: the bus transaction, and the move to the settle step. -/
theorem transfer_of_own {s : State} {f : Frame} {x : TickStep} (hl : s.lock = .own) :
    thenDo (busXfer f s) (fun s => .next (s.goto x)) = .next ((s.afterXfer f).goto x) := by
  rw [busXfer_of_own hl, thenDo_next]

/-- Settles O28: at `T_CFG_XFER` the frame of BAUD is due, and TICKER's turn there is its transfer. -/
theorem cfgbaudSendsTheBaudFrame : Obligations.CfgbaudSendsTheBaudFrame := by
  refine ⟨fun s b ht hl hb => ?_, by decide +kernel⟩
  have hdue : s.frameDue = some (.cfgbaud b) := by simp [State.frameDue, ht, hb]
  rw [← tickerTurn_of_due hdue, tickerTurn_of_cfgXfer ht hl, hb]
  rfl

/-- At `T_WR_XFER` the NTX oldest bytes of OUT are due, and leave OUT in the data-write frame (R183). -/
theorem exec_datawr_of_wrXfer {s : State} (ht : s.tpc = .wrXfer) (hl : s.lock = .own)
    (hn : s.ntx ≤ s.outF.bytes.length) (hc : s.ntx ≤ s.cfg.payloadBytes) :
    exec (.datawr (s.outF.bytes.take s.ntx)) s =
      .next ((({ s with outF := { s.outF with bytes := s.outF.bytes.drop s.ntx } } : State).afterXfer
        (buildDataWr s.cfg (s.outF.bytes.take s.ntx))).goto .wrSettle) := by
  have hdue : s.frameDue = some (.datawr (s.outF.bytes.take s.ntx)) := by simp [State.frameDue, ht]
  have hpop := pop_eq_some.mpr ⟨hn, rfl, rfl⟩
  have hlen : (s.outF.bytes.take s.ntx).length ≤ s.cfg.payloadBytes := (List.length_take_le ..).trans hc
  simp only [exec, execDatawr, whenDue_of_due hdue, hpop, if_pos hlen]
  refine transfer_of_own ?_
  exact hl

/-- Settles O29: the bounds on NTX are those of the pop and of the frame's payload. -/
theorem datawrSendsTheOldestBytes : Obligations.DatawrSendsTheOldestBytes := by
  intro s d ht hl hd hn hc
  subst hd
  exact exec_datawr_of_wrXfer ht hl hn hc

/-- At `T_RD_XFER` the read request is due, and is sent (R185). -/
theorem exec_datard_of_rdXfer {s : State} (ht : s.tpc = .rdXfer) (hl : s.lock = .own) :
    exec .datard s = .next ((s.afterXfer (buildDataRd s.cfg)).goto .rdSettle) := by
  have hdue : s.frameDue = some .datard := by simp [State.frameDue, ht]
  rw [exec, execDatard, whenDue_of_due hdue, transfer_of_own hl]

/-- Settles O30: the transfer of the read request, and the rule's example. -/
theorem datardSendsTheReadRequest : Obligations.DatardSendsTheReadRequest :=
  ⟨fun _ => exec_datard_of_rdXfer, by decide +kernel⟩

/-! ### The micro-steps without a frame -/

/-- `T_BUDGET` takes the budget (R180). -/
theorem tickerTurn_of_budget {s : State} (ht : s.tpc = .budget) :
    tickerTurn s = .next { s with ntx := budget s.cfg s.outF.size s.baud, tpc := .wrXfer } := by
  simp [tickerTurn, State.frameDue, microStep, State.takeBudget, State.goto, ht]

/-- `T_WR_XFER` sends the budgeted bytes (R183). -/
theorem tickerTurn_of_wrXfer {s : State} (ht : s.tpc = .wrXfer) (hl : s.lock = .own)
    (hn : s.ntx ≤ s.outF.bytes.length) (hc : s.ntx ≤ s.cfg.payloadBytes) :
    tickerTurn s = .next ((({ s with outF := { s.outF with bytes := s.outF.bytes.drop s.ntx } } : State).afterXfer
      (buildDataWr s.cfg (s.outF.bytes.take s.ntx))).goto .wrSettle) :=
  (tickerTurn_of_due (by simp [State.frameDue, ht])).trans (exec_datawr_of_wrXfer ht hl hn hc)

/-- `T_WR_SETTLE` moves on (R184). -/
theorem tickerTurn_of_wrSettle {s : State} (ht : s.tpc = .wrSettle) : tickerTurn s = .next (s.goto .rdXfer) := by
  simp [tickerTurn, State.frameDue, microStep, State.wrSettle, ht]

/-- `T_RD_XFER` sends the read request (R185). -/
theorem tickerTurn_of_rdXfer {s : State} (ht : s.tpc = .rdXfer) (hl : s.lock = .own) :
    tickerTurn s = .next ((s.afterXfer (buildDataRd s.cfg)).goto .rdSettle) :=
  (tickerTurn_of_due (by simp [State.frameDue, ht])).trans (exec_datard_of_rdXfer ht hl)

/-- `T_RD_SETTLE` moves on (R186). -/
theorem tickerTurn_of_rdSettle {s : State} (ht : s.tpc = .rdSettle) : tickerTurn s = .next (s.goto .unlock) := by
  simp [tickerTurn, State.frameDue, microStep, State.rdSettle, ht]

/-- `T_UNLOCK` gives up the lock (R187). -/
theorem tickerTurn_of_unlock {s : State} (ht : s.tpc = .unlock) (hl : s.lock = .own) :
    tickerTurn s = .next { s with lock := .free, tpc := .inspect } := by
  have hunlock := unlock_eq_next.mpr ⟨hl, rfl⟩
  simp [tickerTurn, State.frameDue, microStep, unlockStep, ht, hunlock, State.goto]

/-- `T_FINISH` clears BUSY and stamps the clock, and the tick returns (R190). -/
theorem tickerTurn_of_finish {s : State} (ht : s.tpc = .finish) :
    tickerTurn s = .next { s with busy := false, lastTs := s.now, tpc := .idle } := by
  simp [tickerTurn, State.frameDue, microStep, State.finish, State.clearBusy, State.goto, ht]

/-- The budget is at most the pacing cap, and is one of the three it is the least of (R180). -/
theorem budget_cases (c : Cfg) (available : Nat) (b : Word32) :
    budget c available b ≤ pacingCap c b ∧ (budget c available b = available ∨
      budget c available b = c.payloadBytes ∨ budget c available b = pacingCap c b) := by
  unfold budget
  omega

/-- Settles O32: the scheduled micro-step is `T_BUDGET`'s, and the budget is a minimum of three. -/
theorem budgetIsTheLeastOfThree : Obligations.BudgetIsTheLeastOfThree := by
  refine ⟨fun s ts hwf hs ht => ?_, by decide⟩
  obtain ⟨havailable, hpayload⟩ := budget_le s.cfg s.outF.size s.baud
  obtain ⟨hpacing, hone⟩ := budget_cases s.cfg s.outF.size s.baud
  exact ⟨budget s.cfg s.outF.size s.baud, (step_of_scheduled hwf hs).trans (tickerTurn_of_budget ht), havailable,
    hpayload, hpacing, hone⟩

/-- Settles O33: each settle step is a move of the sequencer alone. -/
theorem settleStepsChangeNothing : Obligations.SettleStepsChangeNothing := by
  intro s ts hwf hs
  rw [step_of_scheduled hwf hs]
  exact ⟨tickerTurn_of_cfgSettle (s := { s with sched := ts }), tickerTurn_of_wrSettle (s := { s with sched := ts }),
    tickerTurn_of_rdSettle (s := { s with sched := ts })⟩

/-- Settles O34: the two micro-steps that give up the lock. -/
theorem lockIsReleasedAtTheEnd : Obligations.LockIsReleasedAtTheEnd := by
  intro s ts hwf hs hl
  rw [step_of_scheduled hwf hs]
  exact ⟨fun ht => tickerTurn_of_cfgDone (s := { s with sched := ts }) ht hl,
    fun ht => tickerTurn_of_unlock (s := { s with sched := ts }) ht hl⟩

/-- Settles O35: the clock is read at the finishing step itself. -/
theorem finishStampsTheClock : Obligations.FinishStampsTheClock := by
  intro s ts hwf hs ht
  exact (step_of_scheduled hwf hs).trans (tickerTurn_of_finish ht)

/-! ### The inbound copy (R188, R189) -/

/-- A received frame on PAGE_DATA is decoded as the response it stands for (R117). -/
theorem decodeRx_rspToFrame (c : Cfg) (r : RspFrame) : decodeRx c (rspToFrame c r) = .datarsp r :=
  if_pos (rowDatarsp_matches.mpr rfl)

/-- The first bytes of a payload, unpacked, are the unpacked payload's first bytes. -/
theorem take_unpackBytes {m k : Nat} (payload : List Word) (h : m ≤ k) :
    (unpackBytes payload k).take m = unpackBytes payload m := by
  rw [unpackBytes, ← List.map_take, List.take_range, Nat.min_eq_left h, unpackBytes]

/-- The checksum branch rejects only with RX_CHECK, and only a wrong checksum (R188). -/
theorem checksumRejects_iff {s : State} :
    s.checksumRejects = true ↔ s.cfg.rxCheck = true ∧ verify s.cfg s.rxf = false := by
  simp [State.checksumRejects]

/-- Settles O36: the response is due, so the checksum branch decides between the copy and the event. -/
theorem datarspCopiesInbound : Obligations.DatarspCopiesInbound := by
  intro s r ht hr
  have hdue : s.frameDue = some (.datarsp r) := by simp [State.frameDue, ht, hr, decodeRx_rspToFrame]
  have hexec : exec (.datarsp r) s = if s.checksumRejects then .next (s.skipCopy .checksumMismatch)
      else inboundCopy r.cnt.toNat (unpackBytes r.payload s.cfg.payloadBytes) s := by
    rw [exec, execDatarsp, whenDue_of_due hdue]
    rfl
  refine ⟨fun hgood => ?copied, fun hcheck hbad => ?skipped⟩
  case copied =>
    have hkeep : ¬ s.checksumRejects = true := by
      rw [checksumRejects_iff]
      rintro ⟨hcheck, hbad⟩
      simp [hcheck, hbad] at hgood
    have hfits : inboundCount s.cfg r.cnt.toNat s.inF.free ≤ s.cfg.payloadBytes := by
      unfold inboundCount
      omega
    rw [hexec, if_neg hkeep, inboundCopy_eq, take_unpackBytes _ hfits]
    exact ⟨_, rfl, rfl⟩
  case skipped =>
    rw [hexec, if_pos (checksumRejects_iff.mpr ⟨hcheck, hbad⟩)]
    rfl

end Sys2Proof.Machine
end

section
/-! SUPPORT. No step faults from a state with the invariant (R192), and every tick without interleaving returns. -/

namespace Sys2Proof.Machine

/-! ### APP's turn raises no fault -/

/-- An outcome that has a next state is no fault. -/
theorem noFault_of_completes {o : Outcome} (h : ∃ t, o = .next t) : noFault o = true := by
  obtain ⟨t, rfl⟩ := h
  rfl

/-- An operation under APP's guard raises no fault where what it guards raises none. -/
theorem noFault_whenAppFree {s : State} {k : State → Outcome} (h : noFault (k s) = true) :
    noFault (whenAppFree s k) = true := by
  unfold whenAppFree
  split
  · exact h
  · rfl

/-- REL tests the precondition of Unlock before it unlocks (R152). -/
theorem noFault_release (s : State) : noFault (release s) = true := by
  unfold release
  split
  · next hheld =>
    obtain ⟨hown, -⟩ := hheld
    rw [unlock_eq_next.mpr ⟨hown, rfl⟩]
    rfl
  · rfl

/-- No call of APP's faults, whatever the state: WRITE pushes what fits, READ pops what is there, and the lock is given
up only where it is owned. -/
theorem noFault_call {call : List Byte} {i : Instr} (hd : decodeCall call = .ok i) (s : State) :
    noFault (exec i s) = true := by
  rcases decodeCall_cases hd with ⟨b, rx, tx, rfl⟩ | ⟨d, rfl⟩ | ⟨len, rfl⟩ | rfl | rfl | rfl | rfl | rfl
  · rw [exec, execBegin]
    refine noFault_whenAppFree ?_
    cases s.mode <;> rfl
  · have hwrite : noFault (writeFifo d s) = true := noFault_of_completes ⟨_, writeFifo_eq d s⟩
    rw [exec, execWrite]
    refine noFault_whenAppFree ?_
    cases s.mode with
    | passthrough => rfl
    | uninit | bridged => exact hwrite
  · have hread : noFault (readFifo len s) = true := noFault_of_completes ⟨_, readFifo_eq len s⟩
    rw [exec, execRead]
    refine noFault_whenAppFree ?_
    cases s.mode with
    | passthrough => rfl
    | uninit | bridged => exact hread
  · rw [exec, execIsext]
    exact noFault_whenAppFree rfl
  · rw [exec, execTryacq]
    refine noFault_whenAppFree ?_
    cases s.mode <;> rfl
  · rw [exec, execRel]
    refine noFault_whenAppFree ?_
    cases s.mode with
    | passthrough => rfl
    | uninit | bridged => exact noFault_release s
  · rfl
  · rfl

/-- Outside BEGIN, APP runs the call it issues. -/
theorem appIssue_of_call {s : State} {call : List Byte} {rest : List (List Byte)} {i : Instr}
    (ha : s.app = call :: rest) (hd : decodeCall call = .ok i) (hn : i ≠ .tick) :
    appIssue s = exec i { s with app := rest } := by
  simp [appIssue, ha, hd, hn]

/-- APP's next operation raises no fault, decoded or not. -/
theorem noFault_appIssue (s : State) : noFault (appIssue s) = true := by
  cases ha : s.app with
  | nil => simp [appIssue, ha, noFault]
  | cons call rest =>
    cases hd : decodeCall call with
    | error e =>
      rw [appIssue_of_undecodable ha hd]
      rfl
    | ok i =>
      by_cases hn : i = .tick
      · rw [appIssue_of_tick ha (hn ▸ hd)]
        rfl
      · rw [appIssue_of_call ha hd hn]
        exact noFault_call hd _

/-- APP's turn raises no fault, inside BEGIN and outside. -/
theorem noFault_appTurn (s : State) : noFault (appTurn s) = true := by
  cases hb : s.bpc with
  | idle =>
    rw [appTurn_of_idle hb]
    exact noFault_appIssue s
  | wait =>
    cases hp : s.pending with
    | true =>
      rw [appTurn_of_wait_pending hb hp]
      rfl
    | false =>
      rw [appTurn_of_wait_served hb hp]
      rfl

/-! ### Every micro-step completes -/

/-- Under the invariant TICKER's turn completes: the lock is held at the steps that need it, and the budget is available
at the data-write transfer. -/
theorem tickerTurn_completes {s : State} (hi : s.Inv) : ∃ t, tickerTurn s = .next t := by
  obtain ⟨-, hlock, -, -, -, -, -, -, -, hbudget, -⟩ := hi
  have hown : ∀ {x : TickStep}, s.tpc = x → x.holdsLock = true → s.lock = .own := fun ht hx => hlock (ht ▸ hx)
  cases ht : s.tpc with
  | idle => exact ⟨_, tickerTurn_of_idle ht⟩
  | cfgXfer => exact ⟨_, tickerTurn_of_cfgXfer ht (hown ht rfl)⟩
  | cfgSettle => exact ⟨_, tickerTurn_of_cfgSettle ht⟩
  | cfgDone => exact ⟨_, tickerTurn_of_cfgDone ht (hown ht rfl)⟩
  | budget => exact ⟨_, tickerTurn_of_budget ht⟩
  | wrXfer =>
    obtain ⟨havailable, hpayload⟩ := hbudget ht
    exact ⟨_, tickerTurn_of_wrXfer ht (hown ht rfl) havailable hpayload⟩
  | wrSettle => exact ⟨_, tickerTurn_of_wrSettle ht⟩
  | rdXfer => exact ⟨_, tickerTurn_of_rdXfer ht (hown ht rfl)⟩
  | rdSettle => exact ⟨_, tickerTurn_of_rdSettle ht⟩
  | unlock => exact ⟨_, tickerTurn_of_unlock ht (hown ht rfl)⟩
  | inspect =>
    obtain ⟨t, hrun, -⟩ := inspect_completes ht
    exact ⟨t, (tickerTurn_of_inspect ht).trans hrun⟩
  | finish => exact ⟨_, tickerTurn_of_finish ht⟩

/-! ### No step faults (R192) -/

/-- No turn of any agent faults under the invariant. -/
theorem noFault_takeTurn {s : State} (hi : s.Inv) (t : Turn) : noFault (takeTurn t s) = true := by
  cases t with
  | app => exact noFault_appTurn s
  | micro => exact noFault_of_completes (tickerTurn_completes hi)
  | strobe => rfl
  | advance us => rfl
  | busTaken => rfl
  | busReleased => rfl

/-- With no turn scheduled the step is the turn of the tick in progress or of APP (log entry 14). -/
theorem step_of_unscheduled {s : State} (hwf : s.cfg.wf = true) (hs : s.sched = []) :
    step s = if s.tpc = .idle then appTurn s else tickerTurn s := by
  simp [step, hwf, scheduledStep, hs, unscheduledTurn]

/-- Settles O46: the step is one agent's turn, scheduled or not. -/
theorem noStepFaultsUnderInv : Obligations.NoStepFaultsUnderInv := by
  intro s hi
  obtain ⟨hwf, -⟩ := id hi
  cases hs : s.sched with
  | cons t ts =>
    rw [step_of_scheduled hwf hs]
    exact noFault_takeTurn (s := { s with sched := ts }) hi t
  | nil =>
    rw [step_of_unscheduled hwf hs]
    split
    · exact noFault_appTurn s
    · exact noFault_of_completes (tickerTurn_completes hi)

/-! ### Every tick returns (R128, R192) -/

/-- How many micro-steps a tick at this step has left before it returns (R35). -/
def TickStep.remaining : TickStep → Nat
  | .idle => 0
  | .cfgXfer => 3
  | .cfgSettle => 2
  | .cfgDone => 1
  | .budget => 8
  | .wrXfer => 7
  | .wrSettle => 6
  | .rdXfer => 5
  | .rdSettle => 4
  | .unlock => 3
  | .inspect => 2
  | .finish => 1

/-- The tick has returned where no micro-step is left. -/
theorem remaining_eq_zero {x : TickStep} : x.remaining = 0 ↔ x = .idle := by
  cases x <;> simp [TickStep.remaining]

/-- The longest part of a tick is the exchange, of eight micro-steps. -/
theorem remaining_le (x : TickStep) : x.remaining ≤ 8 := by
  cases x <;> simp [TickStep.remaining]

/-- Each micro-step of a tick in progress leaves one micro-step less. -/
theorem tickerTurn_remaining {s t : State} (h : tickerTurn s = .next t) (hin : s.tpc ≠ .idle) :
    t.tpc.remaining + 1 = s.tpc.remaining := by
  rcases tickerTurn_cases h with ⟨ht, -⟩ | ⟨ht, -, rfl⟩ | ⟨ht, rfl⟩ | ⟨ht, -, rfl⟩ | ⟨ht, rfl⟩ | ⟨ht, -, -, -, rfl⟩ |
    ⟨ht, rfl⟩ | ⟨ht, -, rfl⟩ | ⟨ht, rfl⟩ | ⟨ht, -, rfl⟩ | ⟨ht, hinspected⟩ | ⟨ht, rfl⟩
  case inl => exact absurd ht hin
  case inr.inr.inr.inr.inr.inr.inr.inr.inr.inr.inl =>
    obtain ⟨f, v, os, -, rfl⟩ := inspected_eq hinspected
    rw [ht]
    rfl
  all_goals
    rw [ht]
    rfl

/-- A run of at least the micro-steps that are left ends with the tick returned and the invariant kept. -/
theorem tickRun_returns {k : Nat} {s : State} (hi : s.Inv) (hk : s.tpc.remaining ≤ k) :
    ∃ t, tickRun k s = .next t ∧ t.tpc = .idle ∧ t.Inv := by
  induction k generalizing s with
  | zero => exact ⟨s, rfl, remaining_eq_zero.mp (Nat.le_zero.mp hk), hi⟩
  | succ k ih =>
    by_cases ht : s.tpc = .idle
    · exact ⟨s, tickRun_of_idle _ ht, ht, hi⟩
    · obtain ⟨u, hu⟩ := tickerTurn_completes hi
      have hless := tickerTurn_remaining hu ht
      rw [tickRun_of_turn k hu]
      exact ih (tickerTurn_keepsInv hi hu) (by omega)

/-- Settles O47: the entry step keeps the invariant, and leaves at most eight micro-steps. -/
theorem everyTickReturns : Obligations.EveryTickReturns := by
  intro s hi _
  rw [wholeTick_eq]
  exact tickRun_returns (tickEntry_keepsInv hi) (remaining_le _)

end Sys2Proof.Machine
end

section
/-! SUPPORT. The exchange as a whole tick (R179 to R190, R195), and a WRITE while it runs (R196). -/

namespace Sys2Proof.Machine

/-! ### The exchange, micro-step by micro-step -/

/-- A tick that qualifies, with the lock free, enters the exchange (R178, R179). -/
theorem tickEntry_of_qualifying {s : State} (ht : s.tpc = .idle) (hm : s.mode = .bridged) (hp : s.pending = false)
    (hg : s.gateClosed = false) (hl : s.lock = .free) : s.tickEntry = s.setBusy.takeLock.goto .budget := by
  simp [State.tickEntry, State.enterExchange, State.tryLock, State.lockFree, ht, hm, hp, hg, hl]

/-- The state at `T_INSPECT` of an exchange that was entered from `s` and sent `k` bytes: both frames are sent, and the
lock is free again. -/
def State.exchanged (s : State) (k : Nat) : State :=
  { (({ s with ntx := k, outF := { s.outF with bytes := s.outF.bytes.drop k } } : State).afterXfer
      (buildDataWr s.cfg (s.outF.bytes.take k))).afterXfer (buildDataRd s.cfg) with
    busy := true, lock := .free, tpc := .inspect }

/-- From the entry into the exchange six micro-steps send both frames and give up the lock. -/
theorem tickRun_exchange (s : State) (k : Nat) :
    tickRun (k + 6) (s.setBusy.takeLock.goto .budget) =
      tickRun k (s.exchanged (budget s.cfg s.outF.size s.baud)) := by
  obtain ⟨havailable, hpayload⟩ := budget_le s.cfg s.outF.size s.baud
  rw [tickRun_of_turn _ (tickerTurn_of_budget rfl),
    tickRun_of_turn _ (tickerTurn_of_wrXfer rfl rfl havailable hpayload),
    tickRun_of_turn _ (tickerTurn_of_wrSettle rfl), tickRun_of_turn _ (tickerTurn_of_rdXfer rfl rfl),
    tickRun_of_turn _ (tickerTurn_of_rdSettle rfl), tickRun_of_turn _ (tickerTurn_of_unlock rfl rfl)]
  rfl

/-- The inspection adds at most a payload of bytes at the young end of IN, and records events only (R188). -/
theorem inspected_adds {s t : State} (h : s.inspected t) :
    ∃ (v : List Byte) (evs : List Event), v.length ≤ 2 * s.cfg.n ∧
      t = { s with
        inF := { s.inF with bytes := s.inF.bytes ++ v }, tpc := .finish, trace := s.trace ++ evs.map .event } := by
  obtain ⟨e, rfl⟩ | ⟨m, hm, rfl⟩ := h
  · refine ⟨[], [e], Nat.zero_le _, ?_⟩
    rw [List.append_nil]
    rfl
  · have hpayload : m ≤ 2 * s.cfg.n := by omega
    refine ⟨(unpackBytes s.rxf.payload (2 * s.cfg.n)).take m,
      if m < s.rxf.offset.toNat then [.inboundTruncated (s.rxf.offset.toNat - m)] else [],
      (List.length_take_le ..).trans hpayload, ?_⟩
    split_ifs <;> rfl

/-- From `T_INSPECT` two micro-steps inspect and finish. -/
theorem tickRun_of_inspect {s : State} (ht : s.tpc = .inspect) (k : Nat) :
    ∃ (v : List Byte) (evs : List Event), v.length ≤ 2 * s.cfg.n ∧
      tickRun (k + 2) s = .next { s with
        inF := { s.inF with bytes := s.inF.bytes ++ v }, busy := false, lastTs := s.now, tpc := .idle,
        trace := s.trace ++ evs.map .event } := by
  obtain ⟨t, hrun, hinspected⟩ := inspect_completes ht
  obtain ⟨v, evs, hv, rfl⟩ := inspected_adds hinspected
  refine ⟨v, evs, hv, ?_⟩
  rw [tickRun_of_turn _ ((tickerTurn_of_inspect ht).trans hrun), tickRun_of_turn _ (tickerTurn_of_finish rfl),
    tickRun_of_idle _ rfl]
  rfl

/-- A whole tick that qualifies, with the lock free, is at `T_INSPECT` after six micro-steps. -/
theorem wholeTick_of_qualifying {s : State} (ht : s.tpc = .idle) (hm : s.mode = .bridged) (hp : s.pending = false)
    (hg : s.gateClosed = false) (hl : s.lock = .free) :
    wholeTick s = tickRun 2 (s.exchanged (budget s.cfg s.outF.size s.baud)) := by
  rw [wholeTick_eq, tickEntry_of_qualifying ht hm hp hg hl]
  exact tickRun_exchange s 2

/-- Settles O49: the entry step takes the free lock, six micro-steps send the two frames, two more end the exchange. -/
theorem exchangeMovesTheBudget : Obligations.ExchangeMovesTheBudget := by
  intro s hi ht hp hm hl hgate
  have hopen : s.gateClosed = false := decide_eq_false (Nat.not_lt.mpr hgate)
  obtain ⟨v, evs, hv, hrun⟩ := tickRun_of_inspect (s := s.exchanged (budget s.cfg s.outF.size s.baud)) rfl 0
  have hwhole := (wholeTick_of_qualifying ht hm hp hopen hl).trans hrun
  refine ⟨_, budget s.cfg s.outF.size s.baud, evs, hwhole, rfl, rfl, ?trace, ⟨v.length, hv, ?old, ?size⟩, rfl, rfl, rfl,
    rfl, hp, hm, rfl⟩
  case trace => simp [State.exchanged, State.afterXfer]
  case old => exact List.take_left
  case size => exact List.length_append

/-! ### A WRITE before the data-write transfer (R196) -/

/-- Outside PASSTHROUGH mode WRITE puts what fits at the young end of OUT (R148). -/
theorem execWrite_of_not_passthrough {s : State} (d : List Byte) (hb : s.bpc = .idle) (hm : s.mode ≠ .passthrough) :
    execWrite d s = .next { s with
      outF := { s.outF with bytes := s.outF.bytes ++ d.take (min d.length s.outF.free) }
      trace := s.trace ++ [.returned (.accepted (min d.length s.outF.free))] } :=
  execWrite_eq_next.mpr ⟨hb, .inr ⟨hm, writeFifo_eq d s⟩⟩

/-- During an exchange the mode is BRIDGED, and APP is not inside BEGIN (R59). -/
theorem bridged_of_inExchange {s : State} (hi : s.Inv) (h : s.tpc.inExchange = true) :
    s.mode = .bridged ∧ s.bpc = .idle := by
  obtain ⟨-, -, -, -, -, -, hwait, -, hbridged, -⟩ := hi
  refine ⟨hbridged h, ?_⟩
  cases hb : s.bpc with
  | idle => rfl
  | wait => exact nomatch (hbridged h).symm.trans (hwait hb)

/-- Settles O59: the budgeted bytes are the oldest of OUT, with the bytes of the WRITE and without them, so the transfer
takes the same from both. -/
theorem writeAfterTheBudgetKeepsTheFrame : Obligations.WriteAfterTheBudgetKeepsTheFrame := by
  intro s d hi ht
  obtain ⟨hm, hb⟩ := bridged_of_inExchange hi (by rw [ht]; rfl)
  obtain ⟨-, hlock, -, -, -, -, -, -, -, hbudget, -⟩ := hi
  obtain ⟨hn, hc⟩ := hbudget ht
  have hl : s.lock = .own := hlock (by rw [ht]; rfl)
  have hwrite := execWrite_of_not_passthrough d hb (by simp [hm])
  generalize d.take (min d.length s.outF.free) = v at hwrite
  have hgrown : s.ntx ≤ (s.outF.bytes ++ v).length := by
    rw [List.length_append]
    exact Nat.le_add_right_of_le hn
  refine ⟨_, _, _, v, hwrite, tickerTurn_of_wrXfer ht hl hn hc, tickerTurn_of_wrXfer ht hl hgrown hc, rfl, ?frame, rfl,
    List.drop_append_of_le_length hn⟩
  case frame => exact congrArg (buildDataWr s.cfg) (List.take_append_of_le_length hn)

end Sys2Proof.Machine
end

section
/-! SUPPORT. The frame codec (R240 to R242): words and wire bytes, words and frames, and the two round trips put
together from theirs. -/

namespace Sys2Proof.Machine

/-! ### Words and wire bytes -/

/-- The wire bytes of a list of words, low byte first (R70): what ENCODE writes, apart from which words those are. -/
def bytesOfWords (ws : List Word) : List Byte := ws.flatMap fun w => [loByte w, hiByte w]

theorem wireBytes_eq (f : Frame) : wireBytes f = bytesOfWords (frameWords f) := rfl

@[simp] theorem bytesOfWords_nil : bytesOfWords [] = [] := rfl

@[simp] theorem bytesOfWords_cons (w : Word) (ws : List Word) :
    bytesOfWords (w :: ws) = loByte w :: hiByte w :: bytesOfWords ws := rfl

/-- Word i is written to bytes 2i and 2i + 1, its low byte first. -/
theorem bytesOfWords_getElem? {ws : List Word} {i : Nat} {w : Word} (h : ws[i]? = some w) :
    (bytesOfWords ws)[2 * i]? = some (loByte w) ∧ (bytesOfWords ws)[2 * i + 1]? = some (hiByte w) := by
  induction ws generalizing i with
  | nil => exact nomatch h
  | cons v ws ih =>
    cases i with
    | zero =>
      obtain rfl : v = w := Option.some.inj h
      exact ⟨rfl, rfl⟩
    | succ i => exact ih h

/-- Word i is read from bytes 2i and 2i + 1, the low byte first, where both are there. -/
theorem wordsOfBytes_getElem? {b : List Byte} {i : Nat} {lo hi : Byte} (hlo : b[2 * i]? = some lo)
    (hhi : b[2 * i + 1]? = some hi) : (wordsOfBytes b)[i]? = some (wordOf lo hi) := by
  induction b using wordsOfBytes.induct generalizing i with
  | case1 x y rest ih =>
    cases i with
    | zero =>
      obtain rfl : x = lo := Option.some.inj hlo
      obtain rfl : y = hi := Option.some.inj hhi
      rfl
    | succ i => exact ih hlo hhi
  | case2 b hshort =>
    match b, hhi with
    | x :: y :: rest, _ => exact absurd rfl (hshort x y rest)

theorem wordsOfBytes_bytesOfWords (ws : List Word) : wordsOfBytes (bytesOfWords ws) = ws := by
  induction ws with
  | nil => rfl
  | cons w ws ih => simp [wordsOfBytes, ih]

/-- An even number of bytes is written back as it was read; an odd last byte would be lost. -/
theorem bytesOfWords_wordsOfBytes : ∀ {b : List Byte}, b.length % 2 = 0 → bytesOfWords (wordsOfBytes b) = b
  | [], _ => rfl
  | lo :: hi :: rest, h => by
    have heven : rest.length % 2 = 0 := (Nat.add_mod_right rest.length 2).symm.trans h
    simp [wordsOfBytes, bytesOfWords_wordsOfBytes heven]

/-- The word of two bytes is their sum, the high byte shifted left by 8 (R241): the two share no bit. -/
theorem wordOf_eq_add (lo hi : Byte) : wordOf lo hi = lo.setWidth 16 + (hi.setWidth 16 <<< 8) := by
  have hlo := lo.isLt
  have hhi := hi.isLt
  apply BitVec.eq_of_toNat_eq
  rw [wordOf, BitVec.toNat_append, ← Nat.shiftLeft_add_eq_or_of_lt hlo]
  simp only [BitVec.toNat_add, BitVec.toNat_shiftLeft, BitVec.toNat_setWidth, Nat.shiftLeft_eq]
  omega

/-! ### Words and frames -/

theorem frameOfWords_frameWords (f : Frame) : frameOfWords f.payload.length (frameWords f) = f := by
  simp [frameOfWords, frameWords]

/-- N + 4 words are the three header words, N payload words and the checksum word. -/
theorem frameWords_frameOfWords {n : Nat} {ws : List Word} (h : ws.length = n + 4) :
    frameWords (frameOfWords n ws) = ws := by
  match ws, h with
  | cc :: page :: offset :: rest, h =>
    have hn : n < rest.length := by simp at h; omega
    have hrest : rest.take n ++ [rest[n]] = rest := by
      rw [List.take_append_getElem, List.take_of_length_le (by simp at h; omega)]
    simp [frameWords, frameOfWords, hn, hrest]

theorem frameWords_getElem? {f : Frame} {i : Nat} (h : i < f.payload.length + 4) :
    (frameWords f)[i]? = some (frameWord f i) := by
  rw [← frameWords_length] at h
  rw [frameWord, List.getD_eq_getElem _ _ h, List.getElem?_eq_getElem h]

/-! ### ENCODE and DECODE -/

/-- The words of the decoded frame are those read from the wire, none dropped and none added. -/
theorem frameWords_decodeFrame {n : Nat} {b : List Byte} (h : b.length = 2 * (n + 4)) :
    frameWords (decodeFrame n b) = wordsOfBytes b :=
  frameWords_frameOfWords (by rw [wordsOfBytes_length]; omega)

theorem decodeFrame_wireBytes (f : Frame) : decodeFrame f.payload.length (wireBytes f) = f := by
  rw [decodeFrame, wireBytes_eq, wordsOfBytes_bytesOfWords, frameOfWords_frameWords]

theorem wireBytes_decodeFrame {n : Nat} {b : List Byte} (h : b.length = 2 * (n + 4)) :
    wireBytes (decodeFrame n b) = b := by
  rw [wireBytes_eq, frameWords_decodeFrame h, bytesOfWords_wordsOfBytes (by omega)]

/-- Word i of the decoded frame is that of bytes 2i and 2i + 1. -/
theorem frameWord_decodeFrame {n : Nat} {b : List Byte} {i : Nat} (h : b.length = 2 * (n + 4)) (hi : i < n + 4) :
    frameWord (decodeFrame n b) i = wordOf (b.getD (2 * i) 0) (b.getD (2 * i + 1) 0) := by
  have hlo : 2 * i < b.length := by omega
  have hhi : 2 * i + 1 < b.length := by omega
  rw [frameWord, frameWords_decodeFrame h, List.getD_eq_getElem?_getD,
    wordsOfBytes_getElem? (List.getElem?_eq_getElem hlo) (List.getElem?_eq_getElem hhi), Option.getD_some,
    List.getD_eq_getElem _ _ hlo, List.getD_eq_getElem _ _ hhi]

/-- Settles O2: each round trip is that of bytes and words around that of words and a frame. -/
theorem frameCodecIsBijective : Obligations.FrameCodecIsBijective := by
  refine ⟨?decodeEncode, fun _ _ => wireBytes_decodeFrame⟩
  case decodeEncode =>
    rintro _ f rfl
    exact decodeFrame_wireBytes f

/-- Settles O3: word i of the frame is there, so its two bytes are where the words' bytes are written. -/
theorem encodeIsLowByteFirst : Obligations.EncodeIsLowByteFirst :=
  ⟨fun _ _ h => bytesOfWords_getElem? (frameWords_getElem? h), wireBytes_length, fun _ => rfl, by decide⟩

/-- Settles O4: the word of the two bytes, as their sum; the example is evaluated with its checksum bytes open. -/
theorem decodeReadsLowByteFirst : Obligations.DecodeReadsLowByteFirst :=
  ⟨fun _ _ _ h hi => (frameWord_decodeFrame h hi).trans (wordOf_eq_add ..), fun _ _ => decodeFrame_payload_length,
    fun _ _ => rfl⟩

end Sys2Proof.Machine
end

section
/-! SUPPORT. The history decides nothing (R270, D36): prefixing it commutes with every operation. The one operation that
touches it, `State.emit`, appends at the other end; whatever else an operation reads or writes is another field. -/

namespace Sys2Proof.Machine

/-! ### Prefixing the history -/

/-- The state in which `h` was seen before everything else. -/
def State.withEarlier (h : List Obs) (s : State) : State := { s with trace := h ++ s.trace }

@[simp] theorem State.withEarlier_tpc (h : List Obs) (s : State) : (s.withEarlier h).tpc = s.tpc := rfl
@[simp] theorem State.withEarlier_bpc (h : List Obs) (s : State) : (s.withEarlier h).bpc = s.bpc := rfl
@[simp] theorem State.withEarlier_mode (h : List Obs) (s : State) : (s.withEarlier h).mode = s.mode := rfl
@[simp] theorem State.withEarlier_ntx (h : List Obs) (s : State) : (s.withEarlier h).ntx = s.ntx := rfl
@[simp] theorem State.withEarlier_outF (h : List Obs) (s : State) : (s.withEarlier h).outF = s.outF := rfl
@[simp] theorem State.withEarlier_app (h : List Obs) (s : State) : (s.withEarlier h).app = s.app := rfl
@[simp] theorem State.withEarlier_sched (h : List Obs) (s : State) : (s.withEarlier h).sched = s.sched := rfl
@[simp] theorem State.withEarlier_frameDue (h : List Obs) (s : State) :
    (s.withEarlier h).frameDue = s.frameDue := rfl

/-- A change of the state that ignores the history: any other history is carried along. -/
def CarriesHistory (g : State → State) : Prop := ∀ h, Function.Commute g (State.withEarlier h)

/-- A meaning that ignores the history: its outcome, next state or stop, is the same after any other history. -/
def IgnoresHistory (k : State → Outcome) : Prop :=
  ∀ h, Function.Semiconj k (State.withEarlier h) (mapNext (State.withEarlier h))

/-! ### Changes of the state -/

/-- Appending at the young end and prefixing at the old end do not meet. -/
theorem carriesHistory_append (os : List Obs) : CarriesHistory fun s => { s with trace := s.trace ++ os } := fun h s =>
  congrArg (fun trace => { s with trace := trace }) (List.append_assoc h s.trace os)

theorem carriesHistory_emit (o : Obs) : CarriesHistory (·.emit o) := carriesHistory_append [o]

/-- A delegated operation records its delegation and its result (R140). -/
theorem carriesHistory_emit_emit (o o' : Obs) : CarriesHistory fun s => (s.emit o).emit o' := fun h =>
  (carriesHistory_emit o' h).comp_left (carriesHistory_emit o h)

theorem carriesHistory_raiseIf (b : Bool) (e : Event) : CarriesHistory (·.raiseIf b e) := by
  simp only [raiseIf_eq_withTrace]
  exact carriesHistory_append _

theorem carriesHistory_ite {p : State → Prop} [DecidablePred p] (hp : ∀ h s, p (s.withEarlier h) ↔ p s)
    {f g : State → State} (hf : CarriesHistory f) (hg : CarriesHistory g) :
    CarriesHistory fun s => if p s then f s else g s := fun h s => by
  simp only [hp]
  split_ifs
  · exact hf h s
  · exact hg h s

/-! ### Outcomes -/

theorem ignoresHistory_next {g : State → State} (hg : CarriesHistory g) : IgnoresHistory fun s => .next (g s) :=
  fun h s => congrArg Host.Outcome.next (hg h s)

theorem ignoresHistory_fault (r : Fault) : IgnoresHistory fun _ => .fault r := fun _ _ => rfl

theorem ignoresHistory_refused (r : Refusal) : IgnoresHistory fun _ => .refused r := fun _ _ => rfl

theorem ignoresHistory_thenDo {f k : State → Outcome} (hf : IgnoresHistory f) (hk : IgnoresHistory k) :
    IgnoresHistory fun s => thenDo (f s) k := fun h s => by
  have hfirst : f (s.withEarlier h) = mapNext (State.withEarlier h) (f s) := hf h s
  simp only [hfirst]
  cases f s with
  | next t => exact hk h t
  | fault r => rfl
  | refused r => rfl

theorem ignoresHistory_ite {p : State → Prop} [DecidablePred p] (hp : ∀ h s, p (s.withEarlier h) ↔ p s)
    {f g : State → Outcome} (hf : IgnoresHistory f) (hg : IgnoresHistory g) :
    IgnoresHistory fun s => if p s then f s else g s := fun h s => by
  simp only [hp]
  split_ifs
  · exact hf h s
  · exact hg h s

theorem ignoresHistory_whenDue {i : Instr} {k : State → Outcome} (hk : IgnoresHistory k) :
    IgnoresHistory (whenDue i · k) :=
  ignoresHistory_ite (fun _ _ => Iff.rfl) hk (ignoresHistory_refused _)

theorem ignoresHistory_whenAppFree {k : State → Outcome} (hk : IgnoresHistory k) : IgnoresHistory (whenAppFree · k) :=
  ignoresHistory_ite (fun _ _ => Iff.rfl) hk (ignoresHistory_refused _)

theorem ignoresHistory_unlock : IgnoresHistory unlock :=
  ignoresHistory_ite (fun _ _ => Iff.rfl) (ignoresHistory_next fun _ _ => rfl) (ignoresHistory_fault _)

/-! ### The frame instructions -/

theorem ignoresHistory_busXfer (f : Frame) : IgnoresHistory (busXfer f) :=
  ignoresHistory_ite (fun _ _ => Iff.rfl)
    (ignoresHistory_next fun h s =>
      carriesHistory_emit (.sent f) h { s.drewRx with txf := f, rxf := decodeFrame s.cfg.n s.rxBytes })
    (ignoresHistory_fault _)

/-- The shape of the three transfer steps: send a frame, go on to the settle step. -/
theorem ignoresHistory_transfer (frame : Cfg → Frame) (x : TickStep) :
    IgnoresHistory fun s => thenDo (busXfer (frame s.cfg) s) fun t => .next (t.goto x) :=
  ignoresHistory_thenDo (fun h s => ignoresHistory_busXfer (frame s.cfg) h s) fun _ _ => rfl

theorem ignoresHistory_execDatawr (d : List Byte) : IgnoresHistory (execDatawr d) :=
  ignoresHistory_whenDue fun h s => by
    simp only [State.withEarlier_outF, State.withEarlier_ntx]
    cases s.outF.pop s.ntx with
    | none => rfl
    | some popped =>
      obtain ⟨v, rest⟩ := popped
      exact ignoresHistory_ite (p := (v.length ≤ ·.cfg.payloadBytes)) (fun _ _ => Iff.rfl)
        (ignoresHistory_transfer (buildDataWr · v) .wrSettle) (ignoresHistory_fault _) h { s with outF := rest }

theorem carriesHistory_skipCopy (e : Event) : CarriesHistory (·.skipCopy e) := fun h s =>
  congrArg (State.goto · .finish) (carriesHistory_emit (.event e) h s)

theorem carriesHistory_ignoreFrame : CarriesHistory State.ignoreFrame :=
  carriesHistory_ite (fun _ _ => Iff.rfl) (carriesHistory_skipCopy _) (carriesHistory_skipCopy _)

theorem ignoresHistory_inboundCopy (cnt : Nat) (bytes : List Byte) : IgnoresHistory (inboundCopy cnt bytes) :=
  fun h s => by
    rw [inboundCopy_eq, inboundCopy_eq]
    exact ignoresHistory_next (carriesHistory_append _) h { s with inF := _, tpc := .finish }

theorem ignoresHistory_execDatarsp (r : RspFrame) : IgnoresHistory (execDatarsp r) :=
  ignoresHistory_whenDue (ignoresHistory_ite (fun _ _ => Iff.rfl) (ignoresHistory_next (carriesHistory_skipCopy _))
    fun h s => ignoresHistory_inboundCopy _ _ h s)

/-! ### The mode gate -/

theorem carriesHistory_beginPassThrough (b : Word32) (rx tx : Nat) : CarriesHistory (·.beginPassThrough b rx tx) :=
  fun h s => carriesHistory_emit_emit _ _ h { s with mode := .passthrough }

/-- The posting step raises three events after writing other fields, and writes other fields after that (R143). -/
theorem carriesHistory_beginPost (b : Word32) (rx tx : Nat) : CarriesHistory (·.beginPost b rx tx) := fun h s => by
  have hraise : ∀ b e (u : State), (u.withEarlier h).raiseIf b e = (u.raiseIf b e).withEarlier h :=
    fun b e => carriesHistory_raiseIf b e h
  have hallocate : (s.withEarlier h).allocate rx tx = (s.allocate rx tx).withEarlier h := rfl
  simp only [State.beginPost, State.raiseAllocation, hallocate, hraise]
  rfl

theorem ignoresHistory_execBegin (b : Word32) (rx tx : Nat) : IgnoresHistory (execBegin b rx tx) :=
  ignoresHistory_whenAppFree fun h s => by
    simp only [State.withEarlier_mode]
    cases s.mode with
    | uninit =>
      have hentry : CarriesHistory fun s =>
          if s.extOk then s.drewExtOk.beginPassThrough b rx tx else s.drewExtOk.beginPost b rx tx :=
        carriesHistory_ite (fun _ _ => Iff.rfl) (fun h s => carriesHistory_beginPassThrough b rx tx h s.drewExtOk)
          fun h s => carriesHistory_beginPost b rx tx h s.drewExtOk
      exact ignoresHistory_next hentry h s
    | passthrough => exact ignoresHistory_next (carriesHistory_emit_emit _ _) h s
    | bridged => rfl

theorem ignoresHistory_writeFifo (d : List Byte) : IgnoresHistory (writeFifo d) := fun h s => by
  rw [writeFifo_eq, writeFifo_eq]
  exact ignoresHistory_next (carriesHistory_emit _) h { s with outF := _ }

theorem ignoresHistory_execWrite (d : List Byte) : IgnoresHistory (execWrite d) :=
  ignoresHistory_whenAppFree fun h s => by
    simp only [State.withEarlier_mode]
    cases s.mode with
    | passthrough => exact ignoresHistory_next (carriesHistory_emit_emit _ _) h s.drewUartAccepted
    | uninit | bridged => exact ignoresHistory_writeFifo d h s

theorem ignoresHistory_readFifo (len : Nat) : IgnoresHistory (readFifo len) := fun h s => by
  rw [readFifo_eq, readFifo_eq]
  exact ignoresHistory_next (carriesHistory_emit _) h { s with inF := _ }

theorem ignoresHistory_execRead (len : Nat) : IgnoresHistory (execRead len) :=
  ignoresHistory_whenAppFree fun h s => by
    simp only [State.withEarlier_mode]
    cases s.mode with
    | passthrough => exact ignoresHistory_next (carriesHistory_emit_emit _ _) h s.drewUartBytes
    | uninit | bridged => exact ignoresHistory_readFifo len h s

theorem ignoresHistory_execIsext : IgnoresHistory execIsext :=
  ignoresHistory_whenAppFree (ignoresHistory_next fun h s => carriesHistory_emit _ h s)

/-- TRYACQ takes the lock where it is free, and answers whether it did (R151). -/
theorem tryAcquire_eq (s : State) : tryAcquire s =
    .next (if s.lock = .free then s.takeLock.emit (.returned (.bool true)) else s.emit (.returned (.bool false))) := by
  obtain ⟨hl, hk⟩ | ⟨hl, hk⟩ := tryLock_cases s
  · rw [tryAcquire, hk, if_pos hl]
    rfl
  · rw [tryAcquire, hk, if_neg hl]
    rfl

theorem ignoresHistory_tryAcquire : IgnoresHistory tryAcquire := by
  rw [funext tryAcquire_eq]
  exact ignoresHistory_next (carriesHistory_ite (fun _ _ => Iff.rfl)
    (fun h s => carriesHistory_emit _ h s.takeLock) (carriesHistory_emit _))

theorem ignoresHistory_execTryacq : IgnoresHistory execTryacq :=
  ignoresHistory_whenAppFree fun h s => by
    simp only [State.withEarlier_mode]
    cases s.mode with
    | passthrough => exact ignoresHistory_next (carriesHistory_emit_emit _ _) h s.drewUartAcquired
    | uninit | bridged => exact ignoresHistory_tryAcquire h s

theorem ignoresHistory_release : IgnoresHistory release :=
  ignoresHistory_ite (fun _ _ => Iff.rfl)
    (ignoresHistory_thenDo ignoresHistory_unlock (ignoresHistory_next (carriesHistory_emit _)))
    (ignoresHistory_refused _)

theorem ignoresHistory_execRel : IgnoresHistory execRel :=
  ignoresHistory_whenAppFree fun h s => by
    simp only [State.withEarlier_mode]
    cases s.mode with
    | passthrough => exact ignoresHistory_next (carriesHistory_emit_emit _ _) h s
    | uninit | bridged => exact ignoresHistory_release h s

/-! ### The tick engine -/

theorem carriesHistory_enterHandshake : CarriesHistory State.enterHandshake := by
  rw [funext enterHandshake_eq]
  exact carriesHistory_ite (fun _ _ => Iff.rfl) (fun _ _ => rfl) (carriesHistory_emit _)

theorem carriesHistory_enterExchange : CarriesHistory State.enterExchange := by
  rw [funext enterExchange_eq]
  exact carriesHistory_ite (fun _ _ => Iff.rfl) (fun _ _ => rfl) fun h s => carriesHistory_emit _ h s.clearBusy

/-- Row by row of the priority chain (R191). -/
theorem carriesHistory_tickEntry : CarriesHistory State.tickEntry :=
  carriesHistory_ite (fun _ _ => Iff.rfl) (carriesHistory_emit (.event .tickOverlapped)) <|
  carriesHistory_ite (fun _ _ => Iff.rfl) (carriesHistory_emit (.delegated .tick)) <|
  carriesHistory_ite (fun _ _ => Iff.rfl) carriesHistory_enterHandshake <|
  carriesHistory_ite (fun _ _ => Iff.rfl) (carriesHistory_emit (.event .notInitialized)) <|
  carriesHistory_ite (fun _ _ => Iff.rfl) (carriesHistory_emit (.event .rateGated)) carriesHistory_enterExchange

/-- The micro-steps without a frame record nothing, and two of them begin with an Unlock (R176, R187). -/
theorem ignoresHistory_microStep : IgnoresHistory microStep := fun h s => by
  simp only [microStep, State.withEarlier_tpc]
  cases s.tpc with
  | cfgDone | unlock => exact ignoresHistory_thenDo ignoresHistory_unlock (fun _ _ => rfl) h s
  | idle | cfgXfer | cfgSettle | budget | wrXfer | wrSettle | rdXfer | rdSettle | inspect | finish => rfl

/-! ### The dispatcher, the turns and the step -/

theorem ignoresHistory_exec (i : Instr) : IgnoresHistory (exec i) := by
  cases i with
  | cfgbaud b => exact ignoresHistory_whenDue (ignoresHistory_transfer (buildCfgBaud · b) .cfgSettle)
  | datawr d => exact ignoresHistory_execDatawr d
  | datard => exact ignoresHistory_whenDue (ignoresHistory_transfer buildDataRd .rdSettle)
  | datarsp r => exact ignoresHistory_execDatarsp r
  | rd f | wr f | bulk f | k3 f => exact ignoresHistory_whenDue (ignoresHistory_next carriesHistory_ignoreFrame)
  | begin b rx tx => exact ignoresHistory_execBegin b rx tx
  | write d => exact ignoresHistory_execWrite d
  | read n => exact ignoresHistory_execRead n
  | isext => exact ignoresHistory_execIsext
  | tryacq => exact ignoresHistory_execTryacq
  | rel => exact ignoresHistory_execRel
  | tick => exact ignoresHistory_next carriesHistory_tickEntry
  | reserved7 => exact ignoresHistory_refused _

theorem ignoresHistory_tickerTurn : IgnoresHistory tickerTurn := fun h s => by
  simp only [tickerTurn, State.withEarlier_frameDue]
  cases s.frameDue with
  | none => exact ignoresHistory_microStep h s
  | some i => exact ignoresHistory_exec i h s

theorem ignoresHistory_appIssue : IgnoresHistory appIssue := fun h s => by
  simp only [appIssue, State.withEarlier_app]
  cases s.app with
  | nil => rfl
  | cons call rest =>
    dsimp only
    cases decodeCall call with
    | error e => rfl
    | ok i =>
      exact ignoresHistory_ite (p := fun _ => i = .tick) (fun _ _ => Iff.rfl) (ignoresHistory_refused _)
        (ignoresHistory_exec i) h { s with app := rest }

theorem carriesHistory_beginComplete : CarriesHistory State.beginComplete := fun h s =>
  carriesHistory_emit _ h
    { s with mode := if s.outF.cap ≠ 0 ∧ s.inF.cap ≠ 0 then .bridged else s.mode, bpc := .idle }

theorem ignoresHistory_appTurn : IgnoresHistory appTurn := fun h s => by
  simp only [appTurn, State.withEarlier_bpc]
  cases s.bpc with
  | idle => exact ignoresHistory_appIssue h s
  | wait =>
    have hpoll : CarriesHistory fun s => if s.pending then s else s.beginComplete :=
      carriesHistory_ite (fun _ _ => Iff.rfl) (fun _ _ => rfl) carriesHistory_beginComplete
    exact ignoresHistory_next hpoll h s

theorem ignoresHistory_takeTurn (t : Turn) : IgnoresHistory (takeTurn t) := by
  cases t with
  | app => exact ignoresHistory_appTurn
  | strobe => exact ignoresHistory_exec .tick
  | micro => exact ignoresHistory_tickerTurn
  | advance us => exact ignoresHistory_next fun _ _ => rfl
  | busTaken =>
    refine ignoresHistory_next (g := State.busTaken) ?_
    rw [funext busTaken_eq]
    exact fun _ _ => rfl
  | busReleased =>
    refine ignoresHistory_next (g := State.busReleased) ?_
    rw [funext busReleased_eq]
    exact fun _ _ => rfl

theorem ignoresHistory_unscheduledTurn : IgnoresHistory unscheduledTurn :=
  ignoresHistory_ite (fun _ _ => Iff.rfl) ignoresHistory_appTurn ignoresHistory_tickerTurn

theorem ignoresHistory_scheduledStep : IgnoresHistory scheduledStep := fun h s => by
  simp only [scheduledStep, State.withEarlier_sched]
  cases s.sched with
  | nil => exact ignoresHistory_unscheduledTurn h s
  | cons t rest => exact ignoresHistory_takeTurn t h { s with sched := rest }

theorem ignoresHistory_step : IgnoresHistory step :=
  ignoresHistory_ite (fun _ _ => Iff.rfl) ignoresHistory_scheduledStep (ignoresHistory_refused _)

/-- Settles O60: no meaning reads the history, so neither does the turn that runs one. -/
theorem historyIsNeverRead : Obligations.HistoryIsNeverRead := fun s h => ignoresHistory_step h s

end Sys2Proof.Machine
end

section
/-! SUPPORT. The payload of a frame: packed stream bytes come back and the rest is zero (R244, R245), the two baud words
and zeros (R246). -/

namespace Sys2Proof.Machine

/-- Payload word k is that of bytes 2k and 2k + 1, a missing byte read as 0 (R75, R244). -/
theorem packBytes_getElem? {n k : Nat} (d : List Byte) (h : k < n) :
    (packBytes n d)[k]? = some (wordOf (d.getD (2 * k) 0) (d.getD (2 * k + 1) 0)) := by
  simp [packBytes, h]

/-- Unpacking the packed bytes reads byte k at byte k, as far as the payload goes (R244, R245). -/
theorem unpackBytes_packBytes {n m : Nat} (d : List Byte) (h : m ≤ 2 * n) :
    unpackBytes (packBytes n d) m = (List.range m).map fun k => d.getD k 0 := by
  refine List.map_congr_left fun k hk => ?_
  have hword : k / 2 < n := by
    have := List.mem_range.mp hk
    omega
  rw [List.getD_eq_getElem?_getD, packBytes_getElem? d hword, Option.getD_some, loByte_wordOf, hiByte_wordOf]
  split_ifs with heven
  · rw [Nat.two_mul_div_two_of_even (Nat.even_iff.mpr heven)]
  · rw [Nat.two_mul_div_two_add_one_of_odd (Nat.odd_iff.mpr (by omega))]

/-- Reading m bytes of a list that is not longer gives the list, filled up with zeros. -/
theorem map_getD_range {d : List Byte} {m : Nat} (h : d.length ≤ m) :
    (List.range m).map (fun k => d.getD k 0) = d ++ List.replicate (m - d.length) 0 := by
  refine List.ext_getElem (by simp; omega) fun k hk _ => ?_
  by_cases hd : k < d.length
  · simp [hd]
  · simp [hd, Nat.le_of_not_lt hd]

/-- The stream bytes a payload carries come back from it (R244, R245). -/
theorem unpackBytes_packBytes_length {n : Nat} {d : List Byte} (h : d.length ≤ 2 * n) :
    unpackBytes (packBytes n d) d.length = d := by
  rw [unpackBytes_packBytes d h, map_getD_range le_rfl, Nat.sub_self, List.replicate_zero, List.append_nil]

/-- Byte k stands in its half of word k / 2 (R244). -/
theorem packBytes_places {n k : Nat} {d : List Byte} {b : Byte} (h : d.length ≤ 2 * n) (hb : d[k]? = some b) :
    ∃ w : Word, (packBytes n d)[k / 2]? = some w ∧ (k % 2 = 0 → loByte w = b) ∧ (k % 2 = 1 → hiByte w = b) := by
  obtain ⟨hk, -⟩ := List.getElem?_eq_some_iff.mp hb
  have hget : ∀ j, j = k → d.getD j 0 = b := by
    rintro _ rfl
    rw [List.getD_eq_getElem?_getD, hb, Option.getD_some]
  refine ⟨_, packBytes_getElem? d (by omega), fun heven => ?_, fun hodd => ?_⟩
  · rw [loByte_wordOf]
    exact hget _ (by omega)
  · rw [hiByte_wordOf]
    exact hget _ (by omega)

/-- Settles O7: where each byte stands, and the two ways to unpack. -/
theorem packUnpackInverse : Obligations.PackUnpackInverse := by
  intro n d h
  refine ⟨packBytes_length n d, fun _ _ => packBytes_places h, ?all, unpackBytes_packBytes_length h⟩
  case all => rw [unpackBytes_packBytes d le_rfl, map_getD_range h]

/-- The two baud words come first, the rest is zero (R246). -/
theorem baudPayload_eq {n : Nat} (b : Word32) (h : 2 ≤ n) :
    baudPayload n b = baudLow b :: baudHigh b :: List.replicate (n - 2) 0 := by
  obtain ⟨m, rfl⟩ := Nat.exists_eq_add_of_le' h
  simp [baudPayload, List.range_succ_eq_map, Function.comp_def]

/-- The baud rate comes back from its two words (R72). -/
theorem baudOf_baudLow_baudHigh (b : Word32) : baudOf (baudLow b) (baudHigh b) = b :=
  BitVec.extractLsb'_append_extractLsb'

end Sys2Proof.Machine
end

section
/-! SUPPORT. The decoder inverts the encoder on frames (R114 to R119, R131): the rows of the opcode table field by
field, then the frame of each row. -/

namespace Sys2Proof.Machine

/-! ### A configuration in range (R9, R10) -/

/-- N is two words at least, and few enough for the count field (R9). -/
theorem payloadWords_bounds {c : Cfg} (h : c.wf = true) : 2 ≤ c.n ∧ c.n < 2 ^ 14 := by
  simp only [Cfg.wf, Bool.and_eq_true, decide_eq_true_eq] at h
  omega

/-- The three kinds are different (R9). -/
theorem kinds_ne {c : Cfg} (h : c.wf = true) : c.kRead ≠ c.kWrite ∧ c.kRead ≠ c.kBulk ∧ c.kWrite ≠ c.kBulk := by
  simp only [Cfg.wf, Bool.and_eq_true, decide_eq_true_eq] at h
  tauto

/-- The reserved kind is none of the three (R119): the four 2-bit codes add up to 2 modulo 4. -/
theorem kReserved_ne {c : Cfg} (h : c.wf = true) :
    c.kReserved ≠ c.kRead ∧ c.kReserved ≠ c.kWrite ∧ c.kReserved ≠ c.kBulk := by
  have hcodes : ∀ r w b : BitVec 2, r ≠ w → r ≠ b → w ≠ b →
      2 - r - w - b ≠ r ∧ 2 - r - w - b ≠ w ∧ 2 - r - w - b ≠ b := by decide
  obtain ⟨hrw, hrb, hwb⟩ := kinds_ne h
  exact hcodes _ _ _ hrw hrb hwb

/-- The two pages are different (R10). -/
theorem pages_ne {c : Cfg} (h : c.wf = true) : c.pageCfg ≠ c.pageData := by
  simp only [Cfg.wf, Bool.and_eq_true, decide_eq_true_eq] at h
  tauto

/-! ### Kind and count (R103, R104) -/

@[simp] theorem kindOf_commandCode (kind : BitVec 2) (count : BitVec 14) : kindOf (commandCode kind count) = kind :=
  BitVec.extractLsb'_append_eq_left

@[simp] theorem countOf_commandCode (kind : BitVec 2) (count : BitVec 14) : countOf (commandCode kind count) = count :=
  BitVec.extractLsb'_append_eq_right

/-! ### The rows of the transmit direction -/

/-- A field that a row fixes in full (R131). -/
theorem and_ones (w : Word) : w &&& 0xFFFF = w := BitVec.and_allOnes

/-- CFGBAUD's row fixes the whole header (R114). -/
theorem rowCfgbaud_matches {c : Cfg} {f : Frame} : (rowCfgbaud c).matches f = true ↔
    f.cc = commandCode c.kWrite 2 ∧ f.page = c.pageCfg ∧ f.offset = 0 := by
  rw [rowCfgbaud, frameRow_matches, and_ones, and_ones, and_ones]

/-- CFGBAUD's page is not that of the stream data (R10). -/
theorem not_rowCfgbaud_of_pageData {c : Cfg} (h : c.wf = true) {f : Frame} (hf : f.page = c.pageData) :
    ¬ (rowCfgbaud c).matches f = true := by
  rw [rowCfgbaud_matches]
  rintro ⟨-, hpage, -⟩
  exact pages_ne h (hpage.symm.trans hf)

/-- DATAWR's row does not look at the offset (R115). -/
theorem rowDatawr_matches {c : Cfg} {f : Frame} : (rowDatawr c).matches f = true ↔
    f.cc = commandCode c.kWrite (BitVec.ofNat 14 c.n) ∧ f.page = c.pageData := by
  rw [rowDatawr, frameRow_matches, and_ones, and_ones]
  simp

/-- DATARD's row fixes the whole header (R116). -/
theorem rowDatard_matches {c : Cfg} {f : Frame} : (rowDatard c).matches f = true ↔
    f.cc = commandCode c.kRead 0 ∧ f.page = c.pageData ∧ f.offset = 0 := by
  rw [rowDatard, frameRow_matches, and_ones, and_ones, and_ones]

/-- A sent frame that no specific row describes is decoded by the class rows (R118, R131). -/
theorem decodeTx_of_no_specificRow {c : Cfg} {f : Frame} (h : specificRow c .tx f.cc f.page f.offset = false) :
    decodeTx c f = .ok (decodeClass c .tx f) := by
  simp only [specificRow, Bool.or_eq_false_iff, decide_eq_false_iff_not] at h
  obtain ⟨⟨hcfgbaud, hdatawr⟩, hdatard⟩ := h
  rw [decodeTx, if_neg (mt rowCfgbaud_matches.mp hcfgbaud), if_neg (mt rowDatawr_matches.mp hdatawr),
    if_neg (mt rowDatard_matches.mp hdatard)]

/-- A received frame that no specific row describes is decoded by the class rows (R118, R131). -/
theorem decodeRx_of_no_specificRow {c : Cfg} {f : Frame} (h : specificRow c .rx f.cc f.page f.offset = false) :
    decodeRx c f = decodeClass c .rx f :=
  if_neg (mt rowDatarsp_matches.mp (of_decide_eq_false h))

/-! ### The class rows (R118, R119) -/

/-- A class row looks at the kind alone. -/
theorem rowClass_matches {kind kind' : BitVec 2} {f : ClassFrame} :
    (rowClass kind).matches (classToFrame kind' f) = true ↔ kind' = kind := by
  have hmask : commandCode kind' f.count &&& 0xC000 = commandCode kind' 0 := by
    have hsplit : (0xC000 : Word) = BitVec.allOnes 2 ++ 0#14 := by decide
    rw [hsplit, commandCode, BitVec.and_append, BitVec.and_allOnes, BitVec.and_zero]
    rfl
  rw [rowClass, frameRow_matches, classToFrame, hmask, commandCode, commandCode, bitVec_append_eq_append_iff]
  simp

@[simp] theorem classOf_classToFrame (kind : BitVec 2) (f : ClassFrame) : classOf f.dir (classToFrame kind f) = f := by
  simp [classOf, classToFrame]

/-- The frame of a class row decodes to that row, among the class rows: the kinds tell them apart. -/
theorem decodeClass_classToFrame {c : Cfg} (h : c.wf = true) {kind : BitVec 2} {f : ClassFrame} {i : Instr}
    (hrow : (kind = c.kRead ∧ i = .rd f) ∨ (kind = c.kWrite ∧ i = .wr f) ∨ (kind = c.kBulk ∧ i = .bulk f) ∨
      (kind ≠ c.kRead ∧ kind ≠ c.kWrite ∧ kind ≠ c.kBulk ∧ i = .k3 f)) :
    decodeClass c f.dir (classToFrame kind f) = i := by
  obtain ⟨hrw, hrb, hwb⟩ := kinds_ne h
  simp only [decodeClass, rowClass_matches, classOf_classToFrame]
  rcases hrow with ⟨rfl, rfl⟩ | ⟨rfl, rfl⟩ | ⟨rfl, rfl⟩ | ⟨hr, hw, hb, rfl⟩
  · rw [if_pos rfl]
  · rw [if_neg hrw.symm, if_pos rfl]
  · rw [if_neg hrb.symm, if_neg hwb.symm, if_pos rfl]
  · rw [if_neg hr, if_neg hw, if_neg hb]

/-! ### Packets (R101, R131) -/

/-- A sent frame of N payload words comes back from its wire bytes to be decoded. -/
theorem decode_tx_wireBytes {c : Cfg} {f : Frame} (h : f.payload.length = c.n) :
    decode c (.tx (wireBytes f)) = decodeTx c f := by
  rw [decode, if_pos (Laws.EncodedSize.wireBytes_frameBytes h), ← h, decodeFrame_wireBytes]

/-- A received frame of N payload words comes back from its wire bytes to be decoded. -/
theorem decode_rx_wireBytes {c : Cfg} {f : Frame} (h : f.payload.length = c.n) :
    decode c (.rx (wireBytes f)) = .ok (decodeRx c f) := by
  rw [decode, if_pos (Laws.EncodedSize.wireBytes_frameBytes h), ← h, decodeFrame_wireBytes]

/-- A well-formed frame of a class row is decoded by the class rows, in either direction. -/
theorem decode_framePacket {c : Cfg} {kind : BitVec 2} {f : ClassFrame} (h : f.wf c kind = true) :
    decode c (framePacket f.dir (classToFrame kind f)) = .ok (decodeClass c f.dir (classToFrame kind f)) := by
  have hlen : (classToFrame kind f).payload.length = c.n := Laws.EncodedSize.class_payload h
  simp only [ClassFrame.wf, Bool.and_eq_true, Bool.not_eq_true'] at h
  obtain ⟨-, hrow⟩ := h
  cases hdir : f.dir with
  | tx =>
    rw [hdir] at hrow
    exact (decode_tx_wireBytes hlen).trans (decodeTx_of_no_specificRow hrow)
  | rx =>
    rw [hdir] at hrow
    rw [framePacket, decode_rx_wireBytes hlen, decodeRx_of_no_specificRow hrow]

/-! ### The three frames the block sends -/

/-- CFGBAUD comes back: its baud rate is the two baud words (R72, R114). -/
theorem decodeTx_buildCfgBaud {c : Cfg} (h : c.wf = true) (b : Word32) :
    decodeTx c (buildCfgBaud c b) = .ok (.cfgbaud b) := by
  obtain ⟨hn, -⟩ := payloadWords_bounds h
  have hpayload : (buildCfgBaud c b).payload = _ := baudPayload_eq b hn
  rw [decodeTx, if_pos (rowCfgbaud_matches.mpr ⟨rfl, rfl, rfl⟩), hpayload]
  exact congrArg (Except.ok ∘ Instr.cfgbaud) (baudOf_baudLow_baudHigh b)

/-- DATAWR's byte count is written in full: a payload has fewer than 2^16 bytes (R111). -/
theorem countWord_toNat {c : Cfg} {d : List Byte} (h : c.wf = true) (hd : d.length ≤ 2 * c.n) :
    (countWord d.length).toNat = d.length := by
  obtain ⟨-, hn⟩ := payloadWords_bounds h
  rw [countWord, BitVec.toNat_ofNat, Nat.mod_eq_of_lt]
  omega

/-- DATAWR comes back: the offset field says how many of the packed bytes are stream bytes (R111, R115). -/
theorem decodeTx_buildDataWr {c : Cfg} {d : List Byte} (h : c.wf = true) (hd : d.length ≤ c.payloadBytes) :
    decodeTx c (buildDataWr c d) = .ok (.datawr d) := by
  have hcfgbaud : ¬ (rowCfgbaud c).matches (buildDataWr c d) = true := not_rowCfgbaud_of_pageData h rfl
  have hcount : (buildDataWr c d).offset.toNat = d.length := countWord_toNat h hd
  rw [decodeTx, if_neg hcfgbaud, if_pos (rowDatawr_matches.mpr ⟨rfl, rfl⟩), hcount, if_pos hd]
  exact congrArg (Except.ok ∘ Instr.datawr) (unpackBytes_packBytes_length hd)

/-- DATARD comes back: its page is not CFGBAUD's, its kind not DATAWR's (R116). -/
theorem decodeTx_buildDataRd {c : Cfg} (h : c.wf = true) : decodeTx c (buildDataRd c) = .ok .datard := by
  obtain ⟨hrw, -⟩ := kinds_ne h
  have hcfgbaud : ¬ (rowCfgbaud c).matches (buildDataRd c) = true := not_rowCfgbaud_of_pageData h rfl
  have hdatawr : ¬ (rowDatawr c).matches (buildDataRd c) = true := by
    rw [rowDatawr_matches]
    rintro ⟨hcc, -⟩
    have hkind := congrArg kindOf hcc
    exact hrw (by simpa [buildDataRd] using hkind)
  rw [decodeTx, if_neg hcfgbaud, if_neg hdatawr, if_pos (rowDatard_matches.mpr ⟨rfl, rfl, rfl⟩)]

end Sys2Proof.Machine
end

section
/-! SUPPORT. The decoder inverts the encoder on calls (log entry 9), and with that on every instruction. -/

namespace Sys2Proof.Machine

/-! ### The operands of a call -/

/-- A natural-number operand comes back, with the bytes that follow it: one bit of fuel per binary digit is enough,
since a byte takes seven of them. -/
theorem decodeNat_encodeNatFuel {fuel n : Nat} (rest : List Byte) (h : n < 2 ^ (fuel + 1)) :
    decodeNat (encodeNatFuel fuel n ++ rest) = some (n, rest) := by
  have hlast : ∀ m < 128, decodeNat (BitVec.ofNat 8 m :: rest) = some (m, rest) := by
    intro m hm
    have hbyte : (BitVec.ofNat 8 m).toNat = m := Nat.mod_eq_of_lt (by omega)
    rw [decodeNat, hbyte, if_pos hm]
  induction fuel generalizing n with
  | zero => exact hlast n (by omega)
  | succ fuel ih =>
    by_cases hsmall : n < 128
    · rw [encodeNatFuel, if_pos hsmall]
      exact hlast n hsmall
    · have hbyte : (BitVec.ofNat 8 (128 + n % 128)).toNat = 128 + n % 128 := Nat.mod_eq_of_lt (by omega)
      have hrest := ih (n := n / 128) (by omega)
      rw [encodeNatFuel, if_neg hsmall, List.cons_append, decodeNat, hbyte, if_neg (by omega), hrest]
      simp only [Nat.add_sub_cancel_left, Nat.mod_add_div]

theorem decodeNat_encodeNat_append (n : Nat) (rest : List Byte) : decodeNat (encodeNat n ++ rest) = some (n, rest) :=
  decodeNat_encodeNatFuel rest Nat.lt_log2_self

theorem decodeNat_encodeNat (n : Nat) : decodeNat (encodeNat n) = some (n, []) := by
  simpa using decodeNat_encodeNat_append n []

/-- BEGIN's three operands come back (R141). -/
theorem decodeBegin_encode (b : Word32) (rx tx : Nat) :
    decodeBegin (encodeBaud b ++ encodeNat rx ++ encodeNat tx) = .ok (.begin b rx tx) := by
  simp [encodeBaud, decodeBegin, decodeNat_encodeNat_append, decodeNat_encodeNat, baudOf_baudLow_baudHigh]

/-- READ's operand comes back (R149). -/
theorem decodeRead_encode (n : Nat) : decodeRead (encodeNat n) = .ok (.read n) := by
  rw [decodeRead, decodeNat_encodeNat]

/-! ### Every instruction -/

/-- Settles O1: the rows of the opcode table one by one, frames by their header and payload, calls by their select and
operands. -/
theorem decodeEncodeInverse : Obligations.DecodeEncodeInverse := by
  intro c i hc hi
  cases i with
  | cfgbaud b => exact (decode_tx_wireBytes (buildCfgBaud_payload_length c b)).trans (decodeTx_buildCfgBaud hc b)
  | datawr d =>
    exact (decode_tx_wireBytes (buildDataWr_payload_length c d)).trans (decodeTx_buildDataWr hc (of_decide_eq_true hi))
  | datard => exact (decode_tx_wireBytes (buildDataRd_payload_length c)).trans (decodeTx_buildDataRd hc)
  | datarsp r =>
    have hlen : (rspToFrame c r).payload.length = c.n := of_decide_eq_true hi
    rw [encode, decode_rx_wireBytes hlen, decodeRx_rspToFrame]
  | rd f => exact (decode_framePacket hi).trans (congrArg _ (decodeClass_classToFrame hc (.inl ⟨rfl, rfl⟩)))
  | wr f => exact (decode_framePacket hi).trans (congrArg _ (decodeClass_classToFrame hc (.inr (.inl ⟨rfl, rfl⟩))))
  | bulk f =>
    exact (decode_framePacket hi).trans (congrArg _ (decodeClass_classToFrame hc (.inr (.inr (.inl ⟨rfl, rfl⟩)))))
  | k3 f =>
    obtain ⟨hr, hw, hb⟩ := kReserved_ne hc
    exact (decode_framePacket hi).trans
      (congrArg _ (decodeClass_classToFrame hc (.inr (.inr (.inr ⟨hr, hw, hb, rfl⟩)))))
  | begin b rx tx => exact decodeBegin_encode b rx tx
  | read n => exact decodeRead_encode n
  | write | isext | tryacq | rel | tick | reserved7 => rfl

end Sys2Proof.Machine
end

section
/-! SUPPORT. The statements about frames: Seal and the checksum (R220 to R228), the layout of the three frames the block
sends (R246, R248, R249), frames and calls written out, and a received frame that is no response (R118, R121). -/

namespace Sys2Proof.Machine

/-! ### The checksum (R220 to R228) -/

/-- Settles O5: CKSUM takes the checksum word as 0 before it reads the wire bytes, of which there are FRAME_BYTES. -/
theorem checksumIgnoresItsField : Obligations.ChecksumIgnoresItsField := fun c f w =>
  ⟨cksum_withCksum c f w, wireBytes { f with cksum := 0 }, rfl, rfl, wireBytes_length _⟩

/-- A sealed frame has its checksum already (R222, R227). -/
theorem sealFrame_sealFrame (c : Cfg) (f : Frame) : sealFrame c (sealFrame c f) = sealFrame c f := rfl

/-- Verify compares the checksum word with the checksum (R228). -/
theorem verify_iff {c : Cfg} {f : Frame} : verify c f = true ↔ f.cksum = cksum c f := by
  rw [verify, beq_iff_eq, eq_comm]

/-- Settles O6: Seal writes the checksum word, which the checksum does not read; the constructors end with Seal. -/
theorem sealedFramesVerify : Obligations.SealedFramesVerify := fun c =>
  ⟨fun f => ⟨rfl, sealFrame_sealFrame c f, verify_sealFrame c f⟩, fun _ => verify_iff, fun _ => sealFrame_sealFrame c _,
    fun _ => sealFrame_sealFrame c _, sealFrame_sealFrame c _⟩

/-! ### The layout of the three frames -/

/-- The count field of DATAWR holds N in full (R104, R248). -/
theorem countOf_buildDataWr {c : Cfg} (h : c.wf = true) (d : List Byte) :
    (countOf (buildDataWr c d).cc).toNat = c.n := by
  obtain ⟨-, hn⟩ := payloadWords_bounds h
  have hcount : countOf (buildDataWr c d).cc = BitVec.ofNat 14 c.n := countOf_commandCode ..
  rw [hcount, BitVec.toNat_ofNat, Nat.mod_eq_of_lt hn]

/-- Settles O8: the header words are those the constructors write, N and the byte count fit their fields, and the baud
payload is the two baud words and zeros. -/
theorem constructorsLayOutFrames : Obligations.ConstructorsLayOutFrames := by
  intro c h
  obtain ⟨hn, -⟩ := payloadWords_bounds h
  refine ⟨fun b => ⟨rfl, rfl, rfl, ?baud⟩, fun d hd => ⟨rfl, ?count, rfl, ?bytes, rfl⟩, rfl, rfl, rfl, rfl⟩
  case baud => exact baudPayload_eq b hn
  case count => exact countOf_buildDataWr h d
  case bytes => exact countWord_toNat h hd

/-! ### Frames and calls written out -/

/-- Settles O13: the decoder is evaluated on each of the packets. -/
theorem writtenOutWordsDecode : Obligations.WrittenOutWordsDecode := by
  refine ⟨?frames, by decide, by decide, by decide, by decide⟩
  rintro _ rfl
  decide

/-! ### A received frame that is no response (R117, R118, R121) -/

/-- Ignoring a frame moves to `T_FINISH` and records why, the checksum before the page (R281). -/
theorem ignoreFrame_eq (s : State) : s.ignoreFrame = { s with
    tpc := .finish
    trace := s.trace ++
      [.event (if s.cfg.rxCheck = true ∧ verify s.cfg s.rxf = false then .checksumMismatch else .pageMismatch)] } := by
  simp only [State.ignoreFrame, checksumRejects_iff]
  split_ifs <;> rfl

/-- Settles O37: RXF decodes to the class row of its kind, whose meaning is to ignore the frame. -/
theorem otherFramesAreIgnoredWhole : Obligations.OtherFramesAreIgnoredWhole := by
  intro s f kind i hwf ht hdir hpage hrxf hrow
  have hclass : decodeClass s.cfg .rx s.rxf = i := by
    rw [hrxf, ← hdir]
    exact decodeClass_classToFrame hwf hrow
  have hother : s.rxf.page ≠ s.cfg.pageData := by
    rw [hrxf]
    exact hpage
  have hdecode : decodeRx s.cfg s.rxf = decodeClass s.cfg .rx s.rxf :=
    decodeRx_of_no_specificRow (decide_eq_false hother)
  have hdue : s.frameDue = some (decodeClass s.cfg .rx s.rxf) := by rw [State.frameDue, ht, hdecode]
  rw [← hclass, exec_decodeClass hdue, ignoreFrame_eq]

end Sys2Proof.Machine
end

section
/-! SUPPORT. WRITE on the outbound FIFO (R148), the step as its instruction (R12, R128), and what a step may do to the
two FIFOs (R45 to R47, R87). -/

namespace Sys2Proof.Machine

/-- Settles O18: WRITE's way outside PASSTHROUGH mode. -/
theorem writeAcceptsWhatFits : Obligations.WriteAcceptsWhatFits := fun _ => execWrite_of_not_passthrough

/-! ### The step as its instruction -/

/-- Settles O40: a scheduled turn is the step; with none scheduled `tpc` says whose turn it is, and at a frame's step a
tick is in progress. -/
theorem stepRunsTheDecodedInstruction : Obligations.StepRunsTheDecodedInstruction := by
  intro s ts i hwf
  refine ⟨fun call rest hb ha hd hn => ⟨fun hs => ?issued, fun hs ht => ?resumed⟩, fun hs => ?strobe,
    fun hdue => ⟨fun hs => ?scheduled, fun hs => ?unscheduled⟩⟩
  case issued =>
    rw [step_of_app_scheduled hwf hs hb]
    exact appIssue_of_call ha hd hn
  case resumed => rw [step_of_unscheduled hwf hs, if_pos ht, appTurn_of_idle hb, appIssue_of_call ha hd hn]
  case strobe => exact step_of_scheduled hwf hs
  case scheduled => exact (step_of_scheduled hwf hs).trans (tickerTurn_of_due hdue)
  case unscheduled =>
    have hbusy : s.tpc ≠ .idle := by
      intro ht
      simp [State.frameDue, ht] at hdue
    rw [step_of_unscheduled hwf hs, if_neg hbusy, tickerTurn_of_due hdue]

/-! ### The FIFOs -/

/-- What a step may do to OUT: nothing, add at its young end the first bytes of a WRITE that APP issues, take at its old
end the NTX bytes of a data-write frame, or empty it where BEGIN posts (R45, R87). -/
def OutInOrder (s t : State) : Prop :=
  t.outF.bytes = s.outF.bytes ∨
  (∃ call rest d v, s.app = call :: rest ∧ decodeCall call = .ok (.write d) ∧ v <+: d ∧
    t.outF.bytes = s.outF.bytes ++ v ∧ newObs s t = [.returned (.accepted v.length)]) ∨
  (s.tpc = .wrXfer ∧ t.outF.bytes = s.outF.bytes.drop s.ntx ∧
    newObs s t = [.sent (buildDataWr s.cfg (s.outF.bytes.take s.ntx))]) ∨
  (s.mode = .uninit ∧ s.bpc = .idle ∧ t.bpc = .wait ∧ t.pending = true ∧ t.outF.bytes = [])

/-- What a step may do to IN: nothing, return the bytes at its old end, or add at its young end the first bytes of the
inspected payload (R46, R87). -/
def InInOrder (s t : State) : Prop :=
  t.inF.bytes = s.inF.bytes ∨
  (∃ k, t.inF.bytes = s.inF.bytes.drop k ∧ newObs s t = [.returned (.bytes (s.inF.bytes.take k))]) ∨
  (s.tpc = .inspect ∧ ∃ m, m ≤ 2 * s.cfg.n ∧ m ≤ s.rxf.offset.toNat ∧
    t.inF.bytes = s.inF.bytes ++ unpackBytes s.rxf.payload m)

/-- A call writes OUT as a WRITE that pushes the first bytes that fit, or as BEGIN's posting step (R143, R148). -/
theorem call_outF {call : List Byte} {i : Instr} {s t : State} (hd : decodeCall call = .ok i) (hn : i ≠ .tick)
    (h : exec i s = .next t) : t.outF.bytes = s.outF.bytes ∨
      (∃ d v, i = .write d ∧ v <+: d ∧ t.outF.bytes = s.outF.bytes ++ v ∧
        newObs s t = [.returned (.accepted v.length)]) ∨
      (s.mode = .uninit ∧ t.bpc = .wait ∧ t.pending = true ∧ t.outF.bytes = []) := by
  obtain ⟨-, hcases⟩ := call_cases hd hn h
  rcases hcases with ⟨b, rx, tx, ⟨-, -, rfl⟩ | ⟨hm, -, rfl⟩ | ⟨-, rfl⟩⟩ | ⟨d, rfl, ⟨-, rfl⟩ | ⟨-, rfl⟩⟩ |
    ⟨len, ⟨-, rfl⟩ | ⟨-, rfl⟩⟩ | ⟨b, rfl⟩ | ⟨-, rfl⟩ | ⟨-, -, rfl⟩ | ⟨-, rfl⟩ | ⟨-, -, -, -, rfl⟩
  · exact .inl rfl
  · rw [beginPost_eq]
    exact .inr (.inr ⟨hm, rfl, rfl, rfl⟩)
  · exact .inl rfl
  · exact .inl rfl
  · have hlen : (d.take (min d.length s.outF.free)).length = min d.length s.outF.free := by
      rw [List.length_take]
      omega
    refine .inr (.inl ⟨d, _, rfl, List.take_prefix .., rfl, ?_⟩)
    rw [hlen]
    exact newObs_of_append rfl
  all_goals exact .inl rfl

/-- A call writes IN as a READ that returns the oldest bytes; BEGIN's posting step finds it empty (R143, R149). -/
theorem call_inF {i : Instr} {s t : State} (hi : s.Inv) (h : CallEffect i s t) : t.inF.bytes = s.inF.bytes ∨
    ∃ k, t.inF.bytes = s.inF.bytes.drop k ∧ newObs s t = [.returned (.bytes (s.inF.bytes.take k))] := by
  obtain ⟨-, -, -, -, -, -, -, -, -, -, hempty, -⟩ := hi
  cases h with
  | posted _ _ _ _ _ _ hm => exact .inl (hempty (by simp [hm])).symm
  | read f v k hpop =>
    obtain ⟨-, rfl, rfl⟩ := pop_eq_some.mp hpop
    exact .inr ⟨k, rfl, newObs_of_append rfl⟩
  | answered | opened | wrote | acquired | released => exact .inl rfl

/-- A call keeps both FIFOs in order. -/
theorem call_inOrder {s t : State} {r : List Turn} {call : List Byte} {rest : List (List Byte)} {i : Instr}
    (hi : s.Inv) (ha : s.app = call :: rest) (hd : decodeCall call = .ok i) (hn : i ≠ .tick)
    (h : exec i { s with sched := r, app := rest } = .next t) : OutInOrder s t ∧ InInOrder s t := by
  obtain ⟨hb, heffect⟩ := call_effect hd hn h
  constructor
  · rcases call_outF hd hn h with hsame | ⟨d, v, rfl, hprefix, hout, hobs⟩ | ⟨hm, hwait, hp, hout⟩
    · exact .inl hsame
    · exact .inr (.inl ⟨call, rest, d, v, ha, hd, hprefix, hout, hobs⟩)
    · exact .inr (.inr (.inr ⟨hm, hb, hwait, hp, hout⟩))
  · rcases call_inF (s := { s with sched := r, app := rest }) hi heffect with hsame | hread
    · exact .inl hsame
    · exact .inr (.inl hread)

/-- The inspection leaves OUT alone and adds the first bytes of the received payload to IN (R188). -/
theorem inspected_inOrder {s t : State} (ht : s.tpc = .inspect) (h : s.inspected t) :
    OutInOrder s t ∧ InInOrder s t := by
  obtain ⟨e, rfl⟩ | ⟨m, hm, rfl⟩ := h
  · exact ⟨.inl rfl, .inl rfl⟩
  · have hpayload : m ≤ 2 * s.cfg.n := by omega
    have hcount : m ≤ s.rxf.offset.toNat := by omega
    exact ⟨.inl rfl, .inr (.inr ⟨ht, m, hpayload, hcount, congrArg _ (take_unpackBytes _ hpayload)⟩)⟩

/-- A micro-step keeps both FIFOs in order: only the data-write transfer and the inspection touch one (R183, R188). -/
theorem micro_inOrder {s t : State} (h : tickerTurn s = .next t) : OutInOrder s t ∧ InInOrder s t := by
  have hkept : t.outF.bytes = s.outF.bytes → t.inF.bytes = s.inF.bytes → OutInOrder s t ∧ InInOrder s t :=
    fun hout hin => ⟨.inl hout, .inl hin⟩
  rcases tickerTurn_cases h with ⟨-, rfl⟩ | ⟨-, -, rfl⟩ | ⟨-, rfl⟩ | ⟨-, -, rfl⟩ | ⟨-, rfl⟩ | ⟨ht, -, -, -, rfl⟩ |
    ⟨-, rfl⟩ | ⟨-, -, rfl⟩ | ⟨-, rfl⟩ | ⟨-, -, rfl⟩ | ⟨ht, hinspected⟩ | ⟨-, rfl⟩
  · exact hkept rfl rfl
  · exact hkept rfl rfl
  · exact hkept rfl rfl
  · exact hkept rfl rfl
  · exact hkept rfl rfl
  · exact ⟨.inr (.inr (.inl ⟨ht, rfl, newObs_of_append rfl⟩)), .inl rfl⟩
  · exact hkept rfl rfl
  · exact hkept rfl rfl
  · exact hkept rfl rfl
  · exact hkept rfl rfl
  · exact inspected_inOrder ht hinspected
  · exact hkept rfl rfl

/-- The entry step of TICK leaves both FIFOs alone. -/
theorem entry_fifos {s t : State} (h : EntryEffect s t) : t.outF = s.outF ∧ t.inF = s.inF := by
  cases h <;> exact ⟨rfl, rfl⟩

/-- Settles O57: calls and micro-steps keep the order, and no other turn touches a FIFO. -/
theorem fifosKeepOrderAndBytes : Obligations.FifosKeepOrderAndBytes := by
  intro s t hi h
  suffices OutInOrder s t ∧ InInOrder s t from this
  apply step_elim h
  case call => exact fun r call rest i _ ha hd hn t h => call_inOrder hi ha hd hn h
  case micro => exact fun r t h => micro_inOrder (s := { s with sched := r }) h
  case strobe =>
    intro r
    obtain ⟨hout, hin⟩ := entry_fifos (tickEntry_effect { s with sched := r })
    exact ⟨.inl (congrArg _ hout), .inl (congrArg _ hin)⟩
  all_goals
    intros
    exact ⟨.inl rfl, .inl rfl⟩

end Sys2Proof.Machine
end
